-- ==== Sys2Proof/Word.lean ====
section
/-! DEFINITION. Bytes, 16-bit words and the numbers of stations and resources. -/

namespace Sys2Proof

/-- A byte of the line or of the serial port (R83, R153). -/
abbrev Byte := BitVec 8

/-- A 16-bit field: generations (R3), the TSN (R49), the network digest (R163), the CRC (R85). -/
abbrev Word16 := BitVec 16

/-- A station number, 0 to 31 (00_scope.md section 6). -/
abbrev Station := Fin 32

/-- A resource number, 0 to 63 (00_scope.md section 6). -/
abbrev Resource := Fin 64

end Sys2Proof
end

