-- ==== Sys2Proof/Syntax.lean ====
section
/-! DEFINITION. The records and frames that commands carry, and `Instr`: one constructor per row of
spec/opcode_table.json. -/

namespace Sys2Proof

/-- The mode a CLAIM asks for and a waiter wants (R1). -/
inductive LeaseMode where
  | shared
  | exclusive
  deriving DecidableEq, Repr

/-- The mode of an entry (R1). -/
inductive EntryMode where
  | free
  | shared
  | exclusive
  deriving DecidableEq, Repr

/-- A holder slot: a station and its slot generation (section 1.1). -/
structure Slot where
  station : Station
  gen : Word16
  deriving DecidableEq, Repr

/-- A waiter record: a station and the mode it wants (section 1.1). -/
structure Waiter where
  station : Station
  mode : LeaseMode
  deriving DecidableEq, Repr

/-- A lease table entry (section 1.1): holders in ascending station number, waiters oldest first. -/
structure Entry where
  mode : EntryMode
  gen : Word16
  holders : List Slot
  waiters : List Waiter
  deriving DecidableEq, Repr

/-- The value of an entry after a reset or a clearing (R4). -/
def Entry.cleared : Entry := { mode := .free, gen := 0, holders := [], waiters := [] }

/-- The state of a roster entry (section 2.1). -/
inductive RosterState where
  | absent
  | joining
  | member
  deriving DecidableEq, Repr

/-- A roster record of SNAPSHOT segment 0 (R202): the provider part does not travel. -/
structure RosterRec where
  state : RosterState
  providingFor : Option Station
  inc : Byte
  deriving DecidableEq, Repr

/-- The role field of a frame (R55, R200). -/
inductive Role where
  | member
  | joiner
  deriving DecidableEq, Repr

/-- The tag of a CLAIM, RELEASE or WITHDRAW (R8): 0 to 15 of the host request queue, 31 of the surrender set. -/
inductive Tag where
  | host (t : Fin 16)
  | surrender
  deriving DecidableEq, Repr

/-- The payload of a SNAPSHOT segment (R202): 32 roster records at index 0, four entries at index `i + 1`. -/
inductive Payload where
  | roster (records : Vector RosterRec 32)
  | entries (i : Fin 16) (four : Vector Entry 4)
  deriving DecidableEq, Repr

/-- The kind of a frame with the fields of its body (R201). The one reason of JOIN_REFUSE is DIGEST. -/
inductive Body where
  | claim (r : Resource) (mode : LeaseMode) (wait : Bool) (tag : Tag)
  | release (r : Resource) (tag : Tag)
  | renew (r : Resource)
  | withdraw (r : Resource) (tag : Tag)
  | expire (r : Resource) (holder : Station) (gen : Word16)
  | join (digest : Word16) (attempt : Fin 4)
  | ready
  | leave
  | evict (target : Station) (inc : Byte)
  | presence
  | joinRefuse (target : Station) (attempt : Fin 4)
  | snapshot (target : Station) (attempt : Fin 4) (tsn : Word16) (payload : Payload)
  deriving DecidableEq, Repr

/-- A frame as decoded: header fields and body (R84, R200). -/
structure Frame where
  role : Role
  sender : Station
  inc : Byte
  baseTsn : Word16
  body : Body
  deriving DecidableEq, Repr

/-- The state frames, which the Replica Engine applies (section 4.2). -/
def Body.isState : Body → Bool
  | .claim .. | .release .. | .renew _ | .withdraw .. | .expire .. => true
  | .join .. | .ready | .leave | .evict .. => true
  | .presence | .joinRefuse .. | .snapshot .. => false

/-- What the receiver reads in one bit time (R82). -/
inductive BitReading where
  | one
  | zero
  | dominant
  | recessive
  deriving DecidableEq, Repr

/-- The frame that passed the veto slot: this station's current attempt, or a frame read from the line (R97, R98). -/
inductive LineFrame where
  | own
  | foreign (f : Frame)
  deriving DecidableEq, Repr

/-- A threshold that VDD crosses (R197): the drive threshold, rising or falling, or, above it, the power-on rising
threshold, rising, with whether RESET# is recognised low there. The last has no row of its own in the table (log 19). -/
inductive SupplyCrossing where
  | driveRising
  | driveFalling
  | powerOnRising (pinLow : Bool)
  deriving DecidableEq, Repr

/-- The commands and events of the part, one constructor per row of spec/opcode_table.json, in the table's order.
Host commands carry their argument bytes as the host clocks them in (R153, R203). RECEPTION_VETO carries the bit times
of the reception, from its first on; MEASUREMENT_WINDOW_END whether a reception is in progress of which no row has told
(R105, log 20). -/
inductive Instr where
  | readStatus
  | readCause
  | clearCause
  | writeConfig (record : List Byte)
  | readConfig
  | start
  | stop
  | claim (resource mode wait : Byte)
  | release (resource : Byte)
  | withdraw (resource : Byte)
  | keep
  | readNote
  | noteRecordRemoved
  | noteCount
  | queryEntry (resource : Byte)
  | queryRoster (station : Byte)
  | queryRequest (tag : Byte)
  | restoreTimebase
  | reset
  | unknownCommand (code : Byte)
  | transactionAborted
  | commandReset
  | commandResetEnd
  | powerOnReset
  | powerOnResetEnd
  | pinReset
  | pinResetEnd
  | measurementWindowEnd (edges : Nat) (receiving : Bool)
  | lineUnitTakesRefclk
  | integrationWaitEnd
  | attemptStart
  | collision
  | jamEnd
  | backoffEnd
  | receptionVeto (readings : List BitReading)
  | frameVetoed
  | frameAccepted (f : LineFrame)
  | renewalDue (r : Resource)
  | selfLapse (r : Resource)
  | expiryWatchThreshold (r : Resource) (holder : Station)
  | presenceDue
  | presenceWatchThreshold (v : Station)
  | joinWaitTimeout
  | segmentStallTimeout
  | keepWindowOpen
  | keepPeriodEnd
  | idleTimerReached
  | supplyDriveThreshold (crossing : SupplyCrossing)
  | csHighSeen
  deriving DecidableEq, Repr

end Sys2Proof
end

