-- ==== Sys2Proof/Decode.lean ====
section
/-! DEFINITION. Decoding of what is clocked in: the host commands by their byte codes, and table words, of which there are
none. -/

namespace Sys2Proof

/-- The command that a transaction takes, from the bytes clocked in before CS# rises (R153, R154, R156, R203): the first
byte names it and the argument bytes of its fixed number follow; bytes after them are ignored; a byte that names no
command takes no arguments; with too few bytes nothing is taken. -/
def hostCommandOf : List Byte → Instr
  | [] => .transactionAborted
  | code :: args =>
    match code.toNat, args with
    | 0x10, _ => .readStatus
    | 0x11, _ => .readCause
    | 0x12, _ => .clearCause
    | 0x20, _ => if 17 ≤ args.length then .writeConfig (args.take 17) else .transactionAborted
    | 0x21, _ => .readConfig
    | 0x30, _ => .start
    | 0x31, _ => .stop
    | 0x32, _ => .restoreTimebase
    | 0x3F, _ => .reset
    | 0x40, resource :: mode :: wait :: _ => .claim resource mode wait
    | 0x41, resource :: _ => .release resource
    | 0x42, resource :: _ => .withdraw resource
    | 0x43, _ => .keep
    | 0x50, _ => .readNote
    | 0x51, _ => .noteCount
    | 0x60, resource :: _ => .queryEntry resource
    | 0x61, station :: _ => .queryRoster station
    | 0x62, tag :: _ => .queryRequest tag
    | 0x40, _ | 0x41, _ | 0x42, _ | 0x60, _ | 0x61, _ | 0x62, _ => .transactionAborted
    | _, _ => .unknownCommand code

/-- The argument bytes that a host command takes (R156); a byte that names no command takes none (R154). -/
def argumentBytes : Instr → Nat
  | .writeConfig _ => 17
  | .claim .. => 3
  | .release _ | .withdraw _ | .queryEntry _ | .queryRoster _ | .queryRequest _ => 1
  | _ => 0

/-- The command that a word of `nbits` bits spells by the table's bits: the table gives none. -/
def decodeTableWord (_nbits _w : Nat) : Option Instr := none

end Sys2Proof
end

