-- ==== Sys2Proof/Config.lean ====
section
/-! DEFINITION. Constants of the part, and the free values: what the spec leaves open and nothing here fixes. -/

namespace Sys2Proof

/-- FREE VALUE (log 3). The rank of the `k`-th kind of event falling due in the tick numbered `n`: events of one
millisecond reach the queue in rising rank. The spec gives no order between the blocks. -/
opaque Config.tieRank : (n k : Nat) → Nat

/-- FREE VALUE (log 16). Whether, in the application numbered `n`, the own-eviction report is taken before the
divergence report: R45 and R52 both say only "after the application is complete". -/
opaque Config.evictionFirst : (n : Nat) → Bool

/-- The request queue holds at most 16 records (R164). -/
def Config.requestQueueSize : Nat := 16

/-- The notification queue holds at most 32 records (R178). -/
def Config.noteQueueSize : Nat := 32

/-- The catch-up queue holds at most 24 records (R65). -/
def Config.catchUpSize : Nat := 24

/-- The control frame queue holds at most 4 JOIN_REFUSE frames (R56). -/
def Config.refusalLimit : Nat := 4

/-- An entry has at most 4 holder slots (R1). -/
def Config.holderLimit : Nat := 4

/-- An entry has at most 6 waiter records (R2). -/
def Config.waiterLimit : Nat := 6

/-- The consecutive veto count that mutes the receiver (R99). -/
def Config.muteLimit : Nat := 32

/-- Good windows in a row that qualify REFCLK (R131) or set the recovered flag (R134). -/
def Config.qualifyWindows : Nat := 16

/-- The least and the greatest edge count of a good measurement window (R129). -/
def Config.goodWindowMin : Nat := 15680
def Config.goodWindowMax : Nat := 16320

end Sys2Proof
end

