-- ==== Sys2Proof/Machine/State.lean ====
section
/-! DEFINITION. The state of the part, block by block (00_scope.md section 3), as plain data; its value after reset. -/

namespace Sys2Proof.Machine

/-- The spec describes no stop of the part: every command completes (R156), and FAULTED is a station state (R79).
So no step ends in a fault. -/
inductive Fault where
  deriving DecidableEq, Repr

/-- Why a step has no answer. -/
inductive Refusal where
  /-- Raised by an arm of `exec` whose row has no meaning yet; safe, since nothing is claimed of such a row. -/
  | notModelled (mnemonic : String)
  deriving DecidableEq, Repr

/-! ## Replica Engine -/

/-- A roster entry (section 2.1). -/
structure RosterEntry where
  state : RosterState
  inc : Byte
  provider : Option Station
  providingFor : Option Station
  deriving DecidableEq, Repr

/-- The replica: lease table, roster, TSN and mismatch record (00_scope.md section 5). -/
structure Replica where
  entries : Vector Entry 64
  roster : Vector RosterEntry 32
  tsn : Word16
  mismatch : Option Station
  deriving DecidableEq, Repr

/-- The value of a roster entry after a reset or a clearing (R32). -/
def RosterEntry.cleared : RosterEntry := { state := .absent, inc := 0, provider := none, providingFor := none }

/-- The cleared replica (R4, R32, R49, R51). -/
def Replica.cleared : Replica :=
  { entries := Vector.replicate 64 Entry.cleared, roster := Vector.replicate 32 RosterEntry.cleared,
    tsn := 0, mismatch := none }

/-! ## Station Controller -/

/-- The leave intent (R54). -/
inductive LeaveIntent where
  | stopping
  | rejoin
  deriving DecidableEq, Repr

/-- The leave replica (R54, R75). -/
inductive LeaveReplica where
  | live
  | cleared
  deriving DecidableEq, Repr

/-- The fault cause (R54, R79). -/
inductive FaultCause where
  | joinFailed
  | refusedConfig
  | duplicate
  | receiverMuted
  deriving DecidableEq, Repr

/-- The station state with the items that exist in one state only (R54). -/
inductive StationState where
  | offline
  | joinWait
  | snapshot
  | synced
  | member
  | leaving (intent : LeaveIntent) (replica : LeaveReplica)
  | faulted (cause : FaultCause)
  deriving DecidableEq, Repr

/-- A frame of the control frame queue (R56). -/
inductive ControlKind where
  | join
  | ready
  | leave
  | joinRefuse (target : Station) (attempt : Fin 4)
  deriving DecidableEq, Repr

/-- A control frame with its attempt count (R92). -/
structure ControlItem where
  kind : ControlKind
  count : Nat
  deriving DecidableEq, Repr

/-- The staged snapshot: segments 0 to `last` with their sender and snapshot TSN (R66). -/
structure Staged where
  sender : Station
  tsn : Word16
  roster : Vector RosterRec 32
  entries : List Entry
  last : Nat
  deriving DecidableEq, Repr

/-- The shadow copy with its segment cursor (R69 to R71) and the candidate segment's attempt count (R92). -/
structure Shadow where
  roster : Vector RosterEntry 32
  entries : Vector Entry 64
  tsn : Word16
  joiner : Station
  attempt : Fin 4
  next : Nat
  requeue : Nat
  givenUp : Bool
  count : Nat
  deriving DecidableEq, Repr

/-- The items of the Station Controller (R54). A timer that is stopped is `none`; a running one holds its count. -/
structure StationCtl where
  station : StationState
  attemptNo : Nat
  joinAccepted : Bool
  memberHeard : Bool
  lowerHeard : Bool
  joinTimer : Option Nat
  staged : Option Staged
  stallTimer : Option Nat
  ownInc : Byte
  catchUp : List Frame
  control : List ControlItem
  readyRequeue : Nat
  shadow : Option Shadow
  deriving DecidableEq, Repr

/-! ## Timer Unit -/

/-- The renewal state of an own-hold record; a candidate carries its attempt count (R107, R92). -/
inductive RenewState where
  | idle
  | candidate (count : Nat)
  | barred
  deriving DecidableEq, Repr

/-- An own-hold record (R107); `running` says whether its elapsed time counts (R111, R112). -/
structure OwnHold where
  r : Resource
  gen : Word16
  elapsed : Nat
  running : Bool
  lapsed : Bool
  renewal : RenewState
  deriving DecidableEq, Repr

/-- An expiry watch (R107); `queued` is its verdict state. -/
structure ExpiryWatch where
  r : Resource
  holder : Station
  gen : Word16
  elapsed : Nat
  queued : Bool
  deriving DecidableEq, Repr

/-- A presence watch (R107); `queued` is its verdict state. -/
structure PresenceWatch where
  station : Station
  inc : Byte
  elapsed : Nat
  queued : Bool
  deriving DecidableEq, Repr

/-- A verdict offered to the Transmit Selector (R107, R120). -/
inductive Verdict where
  | expire (r : Resource) (holder : Station) (gen : Word16)
  | evict (v : Station) (inc : Byte)
  deriving DecidableEq, Repr

/-- A verdict of the queue with its attempt count (R92). -/
structure VerdictItem where
  verdict : Verdict
  count : Nat
  deriving DecidableEq, Repr

/-- The mark of a surrender set member (R121). -/
inductive SurrenderMark where
  | hold
  | wait
  deriving DecidableEq, Repr

/-- A surrender set member with the attempt count of its frame (R121, R123). -/
structure SurrenderItem where
  r : Resource
  mark : SurrenderMark
  count : Nat
  deriving DecidableEq, Repr

/-- The items of the Timer Unit (R107); `presenceOffer` is the class 7 candidate with its count (R117). -/
structure TimerUnit where
  holds : List OwnHold
  expiry : List ExpiryWatch
  presence : List PresenceWatch
  verdicts : List VerdictItem
  presenceTimer : Option Nat
  presenceOffer : Option Nat
  surrender : List SurrenderItem
  deriving DecidableEq, Repr

/-! ## Line Unit -/

/-- The transmitter states (R87). -/
inductive TxState where
  | idle
  | defer
  | send
  | jam
  | veto
  | backoff
  deriving DecidableEq, Repr

/-- The receiver states (R94). -/
inductive RxState where
  | idle
  | receive
  | veto
  deriving DecidableEq, Repr

/-- Which candidate a frame is (R101). -/
inductive Source where
  | control (k : ControlKind)
  | renew (r : Resource)
  | verdict (v : Verdict)
  | segment (index : Nat)
  | surrender (r : Resource)
  | host (tag : Fin 16)
  | presence
  deriving DecidableEq, Repr

/-- The current attempt (R87); `withdrawn` is set when its source withdraws the frame meanwhile (R92, log 29). -/
structure Attempt where
  frame : Frame
  source : Source
  count : Nat
  withdrawn : Bool
  deriving DecidableEq, Repr

/-- The clock of the Line Unit's bit times (R105, R130). -/
inductive BitClock where
  | internal
  | refclk
  deriving DecidableEq, Repr

/-- The items of the Line Unit (R87, R94), the integration wait (R86) and its bit clock (R105). In BACKOFF, and in
JAM when a backoff will follow, `backoff` holds the bit times that remain to wait (R93); while `backoffHeld` is set the
wait has not begun, since the frame cut off by the timebase still has its reception to end (R93, R105). The frame
being decoded is `rxRead`, the bit times read of it so far, and `rxFrame`, an own one from its attempt start on and
another station's once its end mark is read (log 20). -/
structure LineUnit where
  tx : TxState
  current : Option Attempt
  backoff : Option Nat
  backoffHeld : Bool
  rx : RxState
  rxFrame : Option Frame
  rxRead : List BitReading
  rxFailed : Bool
  rxTimebase : Bool
  rxDominant : Nat
  vetoCount : Nat
  muted : Bool
  integrating : Bool
  clock : BitClock
  deriving DecidableEq, Repr

/-! ## Timebase Monitor, Keep Permit, Grant Output Unit -/

/-- The timebase states (R128). -/
inductive TimebaseState where
  | startup
  | reference
  | degraded
  deriving DecidableEq, Repr

/-- The items of the Timebase Monitor (R128). -/
structure TimebaseMonitor where
  timebase : TimebaseState
  goodCount : Nat
  recovered : Bool
  deriving DecidableEq, Repr

/-- The lapse cause (R139). -/
inductive LapseCause where
  | early
  | late
  deriving DecidableEq, Repr

/-- The permit state; LAPSED carries its cause (R139). -/
inductive Permit where
  | none
  | early
  | window
  | lapsed (cause : LapseCause)
  deriving DecidableEq, Repr

/-- The items of the Keep Permit (R139). -/
structure KeepPermit where
  permit : Permit
  timer : Option Nat
  deriving DecidableEq, Repr

/-- The qualifier of a line map (R148). -/
inductive Qualifier where
  | any
  | exclusive
  deriving DecidableEq, Repr

/-- A mapped grant line: a resource and a qualifier (R148). An unmapped line is `none`. -/
structure LineMap where
  r : Resource
  qualifier : Qualifier
  deriving DecidableEq, Repr

/-- The items of the Grant Output Unit (R148): the maps and the levels, `true` for active. -/
structure GrantOutputs where
  maps : Vector (Option LineMap) 8
  active : Vector Bool 8
  deriving DecidableEq, Repr

/-! ## Host Port -/

/-- The bit rate code (R83, R161). -/
inductive BitRate where
  | k250
  | k500
  | k1000
  deriving DecidableEq, Repr

/-- The configuration record with the network digest kept beside it (R161, R163). -/
structure ConfigRecord where
  station : Station
  rate : BitRate
  /-- L, units of 100 ms. -/
  leaseTerm : Nat
  /-- P, units of 10 ms. -/
  presencePeriod : Nat
  /-- M. -/
  missLimit : Nat
  retryLimit : Nat
  /-- K, units of 100 ms. -/
  keepPeriod : Nat
  /-- N. -/
  irqThreshold : Nat
  /-- Tn, in ms. -/
  irqIdle : Nat
  maps : Vector (Option LineMap) 8
  digest : Word16
  deriving DecidableEq, Repr

/-- The kind of a request record, with the fields of CLAIM alone (R164). -/
inductive RequestKind where
  | claim (mode : LeaseMode) (wait : Bool)
  | release
  | withdraw
  deriving DecidableEq, Repr

/-- The state of a request record (R164). -/
inductive RequestState where
  | queued
  | onAir
  deriving DecidableEq, Repr

/-- A record of the request queue (R164). -/
structure Request where
  tag : Fin 16
  kind : RequestKind
  r : Resource
  state : RequestState
  count : Nat
  deriving DecidableEq, Repr

/-- The reset-cause record (R160). -/
structure ResetCause where
  power : Bool
  pin : Bool
  command : Bool
  deriving DecidableEq, Repr

/-- Where the serial port stands: waiting for CS# high after a reset (R154), ready, giving the head record of a
READ_NOTE (R177), or in the RESET transaction whose CS# rise makes the reset (R159). -/
inductive PortState where
  | waitHigh
  | ready
  | noteOut
  | resetTaken
  deriving DecidableEq, Repr

/-! ## Notification Unit -/

/-- The outcomes of a request (R179). WAITING carries its position. -/
inductive ReqOutcome where
  | granted
  | waiting (position : Nat)
  | refusedHeld
  | refusedWaiting
  | refusedBusy
  | refusedFull
  | released
  | notHolder
  | withdrawn
  | notWaiting
  | stray
  | notSent
  | cancelled
  deriving DecidableEq, Repr

/-- The codes of LOST (R179). -/
inductive LossCause where
  | expired
  | lapsed
  | surrendered
  deriving DecidableEq, Repr

/-- The codes of STATION (R179). -/
inductive StationCause where
  | founded
  | joined
  | stop
  | left
  | diverged
  | evicted
  | fault (c : FaultCause)
  deriving DecidableEq, Repr

/-- The codes of MEMBERSHIP (R179). -/
inductive MembershipCause where
  | joined
  | left
  | evicted
  deriving DecidableEq, Repr

/-- The codes of TIMEBASE (R179). -/
inductive TimebaseCause where
  | qualified
  | failed
  | recovered
  | restored
  deriving DecidableEq, Repr

/-- The codes of PERMIT (R179). -/
inductive PermitCause where
  | lapsedEarly
  | lapsedLate
  | restored
  deriving DecidableEq, Repr

/-- A notification record with the fields its kind uses (R179). -/
inductive Note where
  | done (tag : Fin 16) (outcome : ReqOutcome) (r : Resource)
  | granted (r : Resource) (mode : LeaseMode)
  | lost (r : Resource) (cause : LossCause)
  | waitEnded (r : Resource)
  | station (state : StationState) (cause : StationCause)
  | membership (v : Station) (cause : MembershipCause)
  | timebase (cause : TimebaseCause)
  | permit (cause : PermitCause)
  | overflow (dropped : Nat)
  deriving DecidableEq, Repr

/-- The idle timer (R178): once it has reached Tn it stays reached. -/
inductive IdleTimer where
  | stopped
  | running (ms : Nat)
  | reached
  deriving DecidableEq, Repr

/-- The items of the Notification Unit (R178); `irq` is true while IRQ# is asserted. -/
structure NoteUnit where
  queue : List Note
  dropped : Nat
  idle : IdleTimer
  irq : Bool
  deriving DecidableEq, Repr

/-! ## Reset logic and supply -/

/-- A power-on reset (R197): whether its hold time runs, that is, whether VDD has risen past the rising threshold; whether
RESET# is low or in its ending span; whether RESET# has been recognised low at some point of this hold time. -/
structure PowerOnReset where
  holding : Bool
  pinActive : Bool
  pinLow : Bool
  deriving DecidableEq, Repr

/-- Which reset is in progress (R159, R196, R197). -/
inductive ResetPhase where
  | running
  | powerOn (p : PowerOnReset)
  | pin
  | command
  deriving DecidableEq, Repr

/-- The reset in progress, and whether VDD is past the drive threshold (R191 to R194). -/
structure Power where
  phase : ResetPhase
  drivers : Bool
  deriving DecidableEq, Repr

/-! ## The whole part -/

/-- The state of the part. `pending` is the queue of commands waiting, first in, first out; `freeIndex` is the
model's counter of free values (log 3, log 16). -/
structure State where
  power : Power
  cause : ResetCause
  port : PortState
  response : List Byte
  config : Option ConfigRecord
  requests : List Request
  replica : Replica
  sc : StationCtl
  tu : TimerUnit
  lu : LineUnit
  tm : TimebaseMonitor
  kp : KeepPermit
  gou : GrantOutputs
  nu : NoteUnit
  freeIndex : Nat
  pending : List Instr
  deriving DecidableEq, Repr

/-! ## Values after a reset -/

/-- R54. -/
def StationCtl.afterReset : StationCtl :=
  { station := .offline, attemptNo := 0, joinAccepted := false, memberHeard := false, lowerHeard := false,
    joinTimer := none, staged := none, stallTimer := none, ownInc := 0, catchUp := [], control := [],
    readyRequeue := 0, shadow := none }

/-- R107. -/
def TimerUnit.afterReset : TimerUnit :=
  { holds := [], expiry := [], presence := [], verdicts := [], presenceTimer := none, presenceOffer := none,
    surrender := [] }

/-- R87, R94; the items the spec names no value for, the backoff time remaining among them, stand as log 28 says. -/
def LineUnit.afterReset : LineUnit :=
  { tx := .idle, current := none, backoff := none, backoffHeld := false, rx := .idle, rxFrame := none,
    rxRead := [], rxFailed := false, rxTimebase := false, rxDominant := 0, vetoCount := 0, muted := false,
    integrating := false, clock := .internal }

/-- R128. -/
def TimebaseMonitor.afterReset : TimebaseMonitor := { timebase := .startup, goodCount := 0, recovered := false }

/-- R139. -/
def KeepPermit.afterReset : KeepPermit := { permit := .none, timer := none }

/-- R178. -/
def NoteUnit.afterReset : NoteUnit := { queue := [], dropped := 0, idle := .stopped, irq := false }

/-- Every line unmapped and inactive (R148). -/
def GrantOutputs.afterPowerOn : GrantOutputs :=
  { maps := Vector.replicate 8 none, active := Vector.replicate 8 false }

/-- The part right after a power-on reset has ended with RESET# high (R197, log 7): POWER set (R160), no
configuration record (R162), the port waiting for CS# high (R154), no command waiting. -/
def State.reset : State :=
  { power := { phase := .running, drivers := true }, cause := { power := true, pin := false, command := false },
    port := .waitHigh, response := [], config := none, requests := [], replica := Replica.cleared,
    sc := StationCtl.afterReset, tu := TimerUnit.afterReset, lu := LineUnit.afterReset,
    tm := TimebaseMonitor.afterReset, kp := KeepPermit.afterReset, gou := GrantOutputs.afterPowerOn,
    nu := NoteUnit.afterReset, freeIndex := 0, pending := [] }

/-! ## Updates -/

def State.setPower (s : State) (x : Power) : State := { s with power := x }
def State.setCause (s : State) (x : ResetCause) : State := { s with cause := x }
def State.setPort (s : State) (x : PortState) : State := { s with port := x }
def State.setResponse (s : State) (x : List Byte) : State := { s with response := x }
def State.setConfig (s : State) (x : Option ConfigRecord) : State := { s with config := x }
def State.setRequests (s : State) (x : List Request) : State := { s with requests := x }
def State.setReplica (s : State) (x : Replica) : State := { s with replica := x }
def State.setSc (s : State) (x : StationCtl) : State := { s with sc := x }
def State.setTu (s : State) (x : TimerUnit) : State := { s with tu := x }
def State.setLu (s : State) (x : LineUnit) : State := { s with lu := x }
def State.setTm (s : State) (x : TimebaseMonitor) : State := { s with tm := x }
def State.setKp (s : State) (x : KeepPermit) : State := { s with kp := x }
def State.setGou (s : State) (x : GrantOutputs) : State := { s with gou := x }
def State.setNu (s : State) (x : NoteUnit) : State := { s with nu := x }
def State.setFreeIndex (s : State) (x : Nat) : State := { s with freeIndex := x }
def State.setPending (s : State) (x : List Instr) : State := { s with pending := x }

end Sys2Proof.Machine
end

