-- ==== Sys2Proof/Machine/Codec.lean ====
section
/-! DEFINITION. Bits and bytes on the line: CRC, frame layouts, snapshot records, bit coding, and the receiver's
judgement of a reception (sections 4.1, 4.2, 4.4, 11.1). -/

namespace Sys2Proof.Machine

/-- The high and low byte of a 16-bit field, most significant first (R83). -/
def wordBytes (w : Word16) : List Byte := [w.extractLsb' 8 8, w.extractLsb' 0 8]

/-- A 16-bit field from its two bytes, most significant first (R83). -/
def wordOf (hi lo : Byte) : Word16 := hi ++ lo

/-- A byte value of a small count. -/
def byteOf (n : Nat) : Byte := BitVec.ofNat 8 n

/-- A station number in a whole byte (R201). -/
def stationByte (v : Station) : Byte := byteOf v.val

/-- A station field of a whole byte, checked for 0 to 31 (R201). -/
def stationOf (b : Byte) : Option Station := if h : b.toNat < 32 then some ⟨b.toNat, h⟩ else none

/-- A resource field, checked for 0 to 63 (R201). -/
def resourceOf (b : Byte) : Option Resource := if h : b.toNat < 64 then some ⟨b.toNat, h⟩ else none

/-- A resource number in a byte. -/
def resourceByte (r : Resource) : Byte := byteOf r.val

/-! ## CRC -/

/-- One bit through the divider x^16 + x^12 + x^5 + 1 (R85). -/
def crcBit (reg : Word16) (bit : Bool) : Word16 :=
  if reg.msb != bit then (reg <<< 1) ^^^ 0x1021#16 else reg <<< 1

/-- The bits of a byte, most significant first (R83). -/
def byteBits (b : Byte) : List Bool :=
  [b.getLsbD 7, b.getLsbD 6, b.getLsbD 5, b.getLsbD 4, b.getLsbD 3, b.getLsbD 2, b.getLsbD 1, b.getLsbD 0]

/-- One byte through the divider. -/
def crcByte (reg : Word16) (b : Byte) : Word16 := (byteBits b).foldl crcBit reg

/-- The CRC of a sequence of bytes, preset FFFFh, no final inversion (R85, R163). -/
def crc (bytes : List Byte) : Word16 := bytes.foldl crcByte 0xFFFF#16

/-! ## Frame layouts -/

/-- The kind byte (R200). -/
def Body.kindByte : Body → Byte
  | .claim .. => 0x21
  | .release .. => 0x22
  | .renew _ => 0x23
  | .withdraw .. => 0x24
  | .expire .. => 0x25
  | .join .. => 0x31
  | .ready => 0x32
  | .leave => 0x33
  | .evict .. => 0x34
  | .presence => 0x41
  | .joinRefuse .. => 0x42
  | .snapshot .. => 0x43

/-- The kind codes (R200). -/
def kindBytes : List Byte := [0x21, 0x22, 0x23, 0x24, 0x25, 0x31, 0x32, 0x33, 0x34, 0x41, 0x42, 0x43]

/-- Header byte 1: role in bits 7 to 5, sender in bits 4 to 0 (R200). -/
def roleByte (role : Role) (sender : Station) : Byte :=
  byteOf ((match role with | .member => 0x20 | .joiner => 0x40) + sender.val)

/-- Header byte 1 read back; another role code fails the reception (R200). -/
def roleOf (b : Byte) : Option (Role × Station) :=
  let sender : Station := ⟨b.toNat % 32, Nat.mod_lt _ (by decide)⟩
  match b.toNat / 32 with
  | 1 => some (.member, sender)
  | 2 => some (.joiner, sender)
  | _ => none

/-- The mode byte of a CLAIM (R201). -/
def modeByte : LeaseMode → Byte
  | .shared => 0x01
  | .exclusive => 0x02

/-- R201, R203. -/
def modeOf (b : Byte) : Option LeaseMode :=
  if b = 0x01 then some .shared else if b = 0x02 then some .exclusive else none

/-- The wait byte (R201). -/
def waitByte (w : Bool) : Byte := if w then 0x01 else 0x00

/-- R201, R203. -/
def waitOf (b : Byte) : Option Bool := if b = 0x00 then some false else if b = 0x01 then some true else none

/-- The tag byte (R201). -/
def tagByte : Tag → Byte
  | .host t => byteOf t.val
  | .surrender => 0x1F

/-- R201. -/
def tagOf (b : Byte) : Option Tag :=
  if h : b.toNat < 16 then some (.host ⟨b.toNat, h⟩) else if b = 0x1F then some .surrender else none

/-- A join attempt number, 0 to 3 (R201). -/
def attemptOf (b : Byte) : Option (Fin 4) := if h : b.toNat < 4 then some ⟨b.toNat, h⟩ else none

/-- A roster record (R202). -/
def rosterRecBytes (x : RosterRec) : List Byte :=
  let state := match x.state with | .absent => 0x00 | .joining => 0x40 | .member => 0x80
  let pf := match x.providingFor with | some v => 0x20 + v.val | none => 0
  [byteOf (state + pf), x.inc]

/-- R202: state 11b fails. -/
def rosterRecOf (b0 b1 : Byte) : Option RosterRec :=
  let pf : Option Station :=
    if b0.getLsbD 5 then some ⟨b0.toNat % 32, Nat.mod_lt _ (by decide)⟩ else none
  match b0.toNat / 64 with
  | 0 => some { state := .absent, providingFor := pf, inc := b1 }
  | 1 => some { state := .joining, providingFor := pf, inc := b1 }
  | 2 => some { state := .member, providingFor := pf, inc := b1 }
  | _ => none

/-- The bytes of a list of slots (R202, R203). -/
def slotBytes (h : Slot) : List Byte := stationByte h.station :: wordBytes h.gen

/-- The byte of a waiter in an entry record: bit 7 wanted mode, bits 4 to 0 station (R202). Bits 6 and 5, which R202 does
not name, are written 0 (DESIGN CHOICE, log 37). -/
def waiterRecByte (w : Waiter) : Byte :=
  byteOf ((match w.mode with | .shared => 0 | .exclusive => 0x80) + w.station.val)

/-- An entry record of 21 bytes (R202): unused slots and waiter bytes are 00h. -/
def entryRecBytes (e : Entry) : List Byte :=
  let mode := match e.mode with | .free => 0x00 | .shared => 0x40 | .exclusive => 0x80
  byteOf (mode + 8 * e.holders.length + e.waiters.length) :: wordBytes e.gen
    ++ (e.holders.flatMap slotBytes ++ List.replicate 12 0x00).take 12
    ++ (e.waiters.map waiterRecByte ++ List.replicate 6 0x00).take 6

/-- The first `n` holder slots of an entry record (R202). -/
def slotsOf : Nat → List Byte → Option (List Slot)
  | 0, _ => some []
  | n + 1, v :: hi :: lo :: rest =>
    match stationOf v, slotsOf n rest with
    | some st, some more => some ({ station := st, gen := wordOf hi lo } :: more)
    | _, _ => none
  | _ + 1, _ => none

/-- A waiter of an entry record (R202): bits 6 and 5 are not read. -/
def waiterRecOf (b : Byte) : Waiter :=
  { station := ⟨b.toNat % 32, Nat.mod_lt _ (by decide)⟩, mode := if b.getLsbD 7 then .exclusive else .shared }

/-- An entry record (R202): mode 11b, more than 4 slots or 7 waiters fail; unused parts are not read. -/
def entryRecOf (bytes : List Byte) : Option Entry :=
  match bytes with
  | b0 :: hi :: lo :: rest =>
    let h := b0.toNat / 8 % 8
    let w := b0.toNat % 8
    let mode : Option EntryMode :=
      match b0.toNat / 64 with
      | 0 => some .free
      | 1 => some .shared
      | 2 => some .exclusive
      | _ => none
    match mode, slotsOf h rest with
    | some m, some hs =>
      if h ≤ Config.holderLimit ∧ w ≤ Config.waiterLimit ∧ rest.length = 18 then
        some { mode := m, gen := wordOf hi lo, holders := hs, waiters := ((rest.drop 12).take w).map waiterRecOf }
      else none
    | _, _ => none
  | _ => none

/-- The segment index of a payload (section 3.4). -/
def Payload.index : Payload → Nat
  | .roster _ => 0
  | .entries i _ => i.val + 1

/-- The payload bytes: 64 at index 0, 84 at indices 1 to 16 (R202). -/
def Payload.bytes : Payload → List Byte
  | .roster records => records.toList.flatMap rosterRecBytes
  | .entries _ four => four.toList.flatMap entryRecBytes

/-- `n` roster records (R202). -/
def rosterRecsOf : Nat → List Byte → Option (List RosterRec)
  | 0, [] => some []
  | n + 1, b0 :: b1 :: rest =>
    match rosterRecOf b0 b1, rosterRecsOf n rest with
    | some x, some more => some (x :: more)
    | _, _ => none
  | _, _ => none

/-- `n` entry records of 21 bytes (R202). -/
def entryRecsOf : Nat → List Byte → Option (List Entry)
  | 0, [] => some []
  | 0, _ :: _ => none
  | n + 1, bytes =>
    match entryRecOf (bytes.take 21), entryRecsOf n (bytes.drop 21) with
    | some x, some more => some (x :: more)
    | _, _ => none

/-- A list of the right length as a vector. -/
def vectorOf {α : Type} (n : Nat) (xs : List α) : Option (Vector α n) :=
  if h : xs.toArray.size = n then some ⟨xs.toArray, h⟩ else none

/-- The payload at a segment index (R201, R202). -/
def payloadOf (index : Byte) (bytes : List Byte) : Option Payload :=
  if index = 0 then ((rosterRecsOf 32 bytes).bind (vectorOf 32)).map Payload.roster
  else if h : index.toNat - 1 < 16 then
    ((entryRecsOf 4 bytes).bind (vectorOf 4)).map (Payload.entries ⟨index.toNat - 1, h⟩)
  else none

/-- The body bytes of a frame (R201). -/
def Body.bytes : Body → List Byte
  | .claim r m w t => [resourceByte r, modeByte m, waitByte w, tagByte t]
  | .release r t => [resourceByte r, tagByte t]
  | .renew r => [resourceByte r]
  | .withdraw r t => [resourceByte r, tagByte t]
  | .expire r h g => resourceByte r :: stationByte h :: wordBytes g
  | .join d a => wordBytes d ++ [byteOf a.val]
  | .ready | .leave | .presence => []
  | .evict v i => [stationByte v, i]
  | .joinRefuse v a => [stationByte v, byteOf a.val, 0x01]
  | .snapshot v a t p => [stationByte v, byteOf a.val, byteOf (Payload.index p)] ++ wordBytes t ++ Payload.bytes p

/-- The body read back under its kind byte; another length or a field out of range fails (R95, R201). -/
def bodyOf (kind : Byte) (bytes : List Byte) : Option Body :=
  match kind.toNat, bytes with
  | 0x21, [r, m, w, t] =>
    match resourceOf r, modeOf m, waitOf w, tagOf t with
    | some r, some m, some w, some t => some (.claim r m w t)
    | _, _, _, _ => none
  | 0x22, [r, t] =>
    match resourceOf r, tagOf t with
    | some r, some t => some (.release r t)
    | _, _ => none
  | 0x23, [r] => (resourceOf r).map Body.renew
  | 0x24, [r, t] =>
    match resourceOf r, tagOf t with
    | some r, some t => some (.withdraw r t)
    | _, _ => none
  | 0x25, [r, h, hi, lo] =>
    match resourceOf r, stationOf h with
    | some r, some h => some (.expire r h (wordOf hi lo))
    | _, _ => none
  | 0x31, [hi, lo, a] => (attemptOf a).map (Body.join (wordOf hi lo))
  | 0x32, [] => some .ready
  | 0x33, [] => some .leave
  | 0x34, [v, i] => (stationOf v).map (fun v => Body.evict v i)
  | 0x41, [] => some .presence
  | 0x42, [v, a, reason] =>
    match stationOf v, attemptOf a with
    | some v, some a => if reason = 0x01 then some (.joinRefuse v a) else none
    | _, _ => none
  | 0x43, v :: a :: index :: hi :: lo :: payload =>
    match stationOf v, attemptOf a, payloadOf index payload with
    | some v, some a, some p => some (.snapshot v a (wordOf hi lo) p)
    | _, _, _ => none
  | _, _ => none

/-- Header and body of a frame (R84, R200). -/
def Frame.content (f : Frame) : List Byte :=
  Body.kindByte f.body :: roleByte f.role f.sender :: f.inc :: wordBytes f.baseTsn ++ Body.bytes f.body

/-- Header, body and CRC as the transmitter sends them (R84, R85). -/
def Frame.bytes (f : Frame) : List Byte := Frame.content f ++ wordBytes (crc (Frame.content f))

/-- The bit times a frame holds the line, from its first preamble bit to the end of its gap (R84). -/
def Frame.lineTime (f : Frame) : Nat := 92 + 8 * (Body.bytes f.body).length

/-- A frame read from header, body and CRC bytes: every check of R95 after the bit coding. -/
def frameOf (bytes : List Byte) : Option Frame :=
  if crc bytes = 0 ∧ 7 ≤ bytes.length then
    match bytes with
    | kind :: roleB :: inc :: hi :: lo :: rest =>
      match roleOf roleB, bodyOf kind (rest.take (rest.length - 2)) with
      | some (role, sender), some body =>
        some { role := role, sender := sender, inc := inc, baseTsn := wordOf hi lo, body := body }
      | _, _ => none
    | _ => none
  else none

/-! ## Bit coding and reception -/

/-- The reading of a bit time from the levels of its two halves, DOMINANT being true (R82). -/
def readBitTime (first second : Bool) : BitReading :=
  match first, second with
  | true, false => .one
  | false, true => .zero
  | true, true => .dominant
  | false, false => .recessive

/-- The halves a transmitter drives for a bit: a 1 is DOMINANT then RECESSIVE (R82). -/
def driveBit (bit : Bool) : Bool × Bool := (bit, !bit)

/-- What the line shows in one half-bit: DOMINANT when any station drives (R82). -/
def lineLevel (drivers : List Bool) : Bool := drivers.any id

/-- The receiver's level from the differential voltage in millivolts and its previous level (R190). -/
def receiverLevel (millivolts : Int) (previous : Bool) : Bool :=
  if 900 ≤ millivolts then true else if millivolts ≤ 500 then false else previous

/-- A half-bit that the transmitter released but reads as DOMINANT is a mismatch; one that it drove never is (R82). -/
def halfMismatch (driven readsDominant : Bool) : Bool := !driven && readsDominant

/-- The levels of the two halves of a bit time as read (R82). -/
def BitReading.halves : BitReading → Bool × Bool
  | .one => (true, false)
  | .zero => (false, true)
  | .dominant => (true, true)
  | .recessive => (false, false)

/-- A bit sent meets a mismatch in what the transmitter reads back in its bit time (R82). -/
def bitMismatch (sent : Bool) (read : BitReading) : Bool :=
  halfMismatch (driveBit sent).1 (BitReading.halves read).1 || halfMismatch (driveBit sent).2 (BitReading.halves read).2

/-- The bits that a transmitter sends in the contention window: the preamble and header bytes 0 and 1 (R84). -/
def Frame.windowBits (f : Frame) : List Bool :=
  byteBits 0xAA#8 ++ byteBits (Body.kindByte f.body) ++ byteBits (roleByte f.role f.sender)

/-- The transmitter of `f`, reading back these bit times from its first preamble bit on, has met another transmitter in
the contention window: a half-bit that it released reads DOMINANT (R82, R89). -/
def Frame.collides (f : Frame) (readBack : List BitReading) : Bool :=
  ((Frame.windowBits f).zip readBack).any (fun x => bitMismatch x.1 x.2)

/-- The contention window is not over: fewer than its 24 bit times have been read (R84). -/
def Frame.windowOpen (f : Frame) (readBack : List BitReading) : Bool := readBack.length < (Frame.windowBits f).length

/-- The readings of a sequence of bits. -/
def bitReadings (bits : List Bool) : List BitReading :=
  bits.map (fun b => readBitTime (driveBit b).1 (driveBit b).2)

/-- The preamble 1010 1010 (R84). -/
def preamble : List BitReading := [.one, .zero, .one, .zero, .one, .zero, .one, .zero]

/-- The end mark: 4 bit times RECESSIVE (R84). -/
def endMark : List BitReading := [.recessive, .recessive, .recessive, .recessive]

/-- The readings of a whole frame, preamble to end mark (R84). -/
def Frame.readings (f : Frame) : List BitReading :=
  preamble ++ bitReadings ((Frame.bytes f).flatMap byteBits) ++ endMark

/-- The longest run of DOMINANT bit times in a reception (R94). -/
def longestDominant : List BitReading → (run best : Nat) → Nat
  | [], run, best => max run best
  | .dominant :: rest, run, best => longestDominant rest (run + 1) best
  | .one :: rest, run, best => longestDominant rest 0 (max run best)
  | .zero :: rest, run, best => longestDominant rest 0 (max run best)
  | .recessive :: rest, run, best => longestDominant rest 0 (max run best)

/-- The bits before the end mark, which must close the reception; anything else is a coding violation (R82, R95). -/
def bitsToEndMark : List BitReading → Option (List Bool)
  | .one :: rest => (bitsToEndMark rest).map (true :: ·)
  | .zero :: rest => (bitsToEndMark rest).map (false :: ·)
  | [.recessive, .recessive, .recessive, .recessive] => some []
  | _ => none

/-- A byte from its bits, the most significant first (R83). -/
def byteOfBits (b7 b6 b5 b4 b3 b2 b1 b0 : Bool) : Byte :=
  byteOf (128 * b7.toNat + 64 * b6.toNat + 32 * b5.toNat + 16 * b4.toNat + 8 * b3.toNat + 4 * b2.toNat + 2 * b1.toNat
    + b0.toNat)

/-- Bits grouped into bytes; a part of a byte left over fails (R83, R95). -/
def bytesOfBits : List Bool → Option (List Byte)
  | [] => some []
  | b7 :: b6 :: b5 :: b4 :: b3 :: b2 :: b1 :: b0 :: rest =>
    (bytesOfBits rest).map (byteOfBits b7 b6 b5 b4 b3 b2 b1 b0 :: ·)
  | _ => none

/-- The end mark has been read: the last 4 bit times are RECESSIVE (R84). -/
def endMarkRead (readings : List BitReading) : Bool := endMark.isSuffixOf readings

/-- A bit time that codes a bit (R82). -/
def BitReading.isBit : BitReading → Bool
  | .one | .zero => true
  | .dominant | .recessive => false

/-- The bytes wholly read so far (R83). -/
def wholeBytes : List Bool → List Byte
  | b7 :: b6 :: b5 :: b4 :: b3 :: b2 :: b1 :: b0 :: rest => byteOfBits b7 b6 b5 b4 b3 b2 b1 b0 :: wholeBytes rest
  | _ => []

/-- Byte 0 of an entry record is in range: a mode, at most 4 holders and at most 6 waiters (R202). -/
def entryHeadOk (b : Byte) : Bool :=
  b.toNat / 64 != 3 && decide (b.toNat / 8 % 8 ≤ Config.holderLimit) && decide (b.toNat % 8 ≤ Config.waiterLimit)

/-- Byte `j` of a SNAPSHOT payload is in range, after the bytes before it: the state of a roster record, byte 0 of an
entry record, the station of a slot in use (R201, R202). -/
def payloadByteOk (index : Byte) (payload : List Byte) (j : Nat) (b : Byte) : Bool :=
  if index = 0 then !(decide (j < 64) && j % 2 == 0) || b.toNat / 64 != 3
  else if 84 ≤ j then true
  else
    let k := j % 21
    let holders := (payload.getD (j - k) 0).toNat / 8 % 8
    if k = 0 then entryHeadOk b else !(k % 3 == 0 && decide (k / 3 ≤ holders)) || (stationOf b).isSome

/-- Byte `i` after the header is in the range that its kind gives it, after the bytes before it (R201); past the fields of
the kind nothing is checked. -/
def fieldOk (kind : Byte) (body : List Byte) (i : Nat) (b : Byte) : Bool :=
  match kind.toNat, i with
  | 0x21, 0 | 0x22, 0 | 0x23, 0 | 0x24, 0 | 0x25, 0 => (resourceOf b).isSome
  | 0x25, 1 | 0x34, 0 | 0x42, 0 | 0x43, 0 => (stationOf b).isSome
  | 0x21, 1 => (modeOf b).isSome
  | 0x21, 2 => (waitOf b).isSome
  | 0x21, 3 | 0x22, 1 | 0x24, 1 => (tagOf b).isSome
  | 0x31, 2 | 0x42, 1 | 0x43, 1 => (attemptOf b).isSome
  | 0x42, 2 => b == 0x01
  | 0x43, 2 => decide (b.toNat ≤ 16)
  | 0x43, j + 5 => payloadByteOk (body.getD 2 0) (body.drop 5) j b
  | _, _ => true

/-- The bytes read so far hold an unknown kind code, an undefined role code or a body field out of range (R95). -/
def contentBad (bytes : List Byte) : Bool :=
  let body := bytes.drop 5
  (bytes.take 1).any (fun kind => !kindBytes.contains kind || body.zipIdx.any (fun x => !fieldOk kind body x.2 x.1))
  || ((bytes.drop 1).take 1).any (fun role => (roleOf role).isNone)

/-- What a receiver finds before the end mark (R95): a wrong preamble, a coding violation, an unknown kind code, an
undefined role code, a body field out of range, each as soon as the bit time or the byte that shows it has been read. -/
def foundBad (readings : List BitReading) : Bool :=
  let coded := readings.drop 8
  !(readings.take 8).isPrefixOf preamble || !(coded.dropWhile BitReading.isBit).isPrefixOf endMark
  || contentBad (wholeBytes ((coded.takeWhile BitReading.isBit).map (· == .one)))

/-- How a receiver judges a reception at its end (R95, R96). -/
inductive Judgement where
  | good (f : Frame)
  | collision
  | failed
  deriving DecidableEq, Repr

/-- The judgement: a run of 16 DOMINANT bit times makes it a collision (R96); otherwise the frame is good when the
preamble, the coding, the length, the fields and the CRC are (R95). -/
def judge (readings : List BitReading) : Judgement :=
  if 16 ≤ longestDominant readings 0 0 then .collision
  else if readings.take 8 = preamble then
    match ((bitsToEndMark (readings.drop 8)).bind bytesOfBits).bind frameOf with
    | some f => .good f
    | none => .failed
  else .failed

end Sys2Proof.Machine
end

