-- ==== Sys2Proof/Machine/Operands.lean ====
section
/-! DEFINITION. What the host clocks in: the configuration record (R161, R203) and the network digest (R163). -/

namespace Sys2Proof.Machine

/-- The bit rate code (R203). -/
def rateOf (b : Byte) : Option BitRate :=
  if b = 0x01 then some .k250 else if b = 0x02 then some .k500 else if b = 0x03 then some .k1000 else none

/-- R203. -/
def rateByte : BitRate → Byte
  | .k250 => 0x01
  | .k500 => 0x02
  | .k1000 => 0x03

/-- Bit times in one millisecond (R83). -/
def BitRate.bitsPerMs : BitRate → Nat
  | .k250 => 250
  | .k500 => 500
  | .k1000 => 1000

/-- A count field with its range (R161). -/
def rangeOf (lo hi : Nat) (b : Byte) : Option Nat := if lo ≤ b.toNat ∧ b.toNat ≤ hi then some b.toNat else none

/-- The retry limit, 8 or 16 (R203). -/
def retryOf (b : Byte) : Option Nat := if b = 0x08 then some 8 else if b = 0x10 then some 16 else none

/-- K: 0, or 2 to 255 (R161). -/
def keepOf (b : Byte) : Option Nat := if b = 0x01 then none else some b.toNat

/-- A grant map byte: 00h unmapped, or bit 7 set with qualifier in bit 6 and resource in bits 5 to 0 (R203).
The outer `none` is a code out of range. -/
def mapOf (b : Byte) : Option (Option LineMap) :=
  if b = 0x00 then some none
  else if b.getLsbD 7 then
    some (some { r := ⟨b.toNat % 64, Nat.mod_lt _ (by decide)⟩,
                 qualifier := if b.getLsbD 6 then .exclusive else .any })
  else none

/-- R203. -/
def mapByte : Option LineMap → Byte
  | none => 0x00
  | some m => byteOf (0x80 + (match m.qualifier with | .any => 0 | .exclusive => 0x40) + m.r.val)

/-- The eight grant maps (R203). -/
def mapsOf (bytes : List Byte) : Option (Vector (Option LineMap) 8) :=
  (bytes.mapM mapOf).bind (vectorOf 8)

/-- The network digest: the CRC over bit rate code, L, P and M (R163). -/
def networkDigest (rate : BitRate) (l p m : Nat) : Word16 := crc [rateByte rate, byteOf l, byteOf p, byteOf m]

/-- The configuration record from its 17 bytes, with its digest; any field out of range fails (R161, R203). -/
def configRecordOf (bytes : List Byte) : Option ConfigRecord :=
  match bytes with
  | b0 :: b1 :: b2 :: b3 :: b4 :: b5 :: b6 :: b7 :: b8 :: maps =>
    match stationOf b0, rateOf b1, rangeOf 1 255 b2, rangeOf 1 255 b3, rangeOf 2 15 b4, retryOf b5, keepOf b6,
        rangeOf 1 16 b7, rangeOf 1 255 b8, mapsOf maps with
    | some st, some rate, some l, some p, some m, some retry, some k, some n, some tn, some maps =>
      some { station := st, rate := rate, leaseTerm := l, presencePeriod := p, missLimit := m, retryLimit := retry,
             keepPeriod := k, irqThreshold := n, irqIdle := tn, maps := maps, digest := networkDigest rate l p m }
    | _, _, _, _, _, _, _, _, _, _ => none
  | _ => none

/-- The 17 bytes of a configuration record (R162, R203). -/
def ConfigRecord.bytes (c : ConfigRecord) : List Byte :=
  [stationByte c.station, rateByte c.rate, byteOf c.leaseTerm, byteOf c.presencePeriod, byteOf c.missLimit,
   byteOf c.retryLimit, byteOf c.keepPeriod, byteOf c.irqThreshold, byteOf c.irqIdle]
  ++ c.maps.toList.map mapByte

/-- The immediate statuses (R156). -/
inductive Status where
  | ok
  | refusedState
  | refusedArg
  | noConfig
  | noTimebase
  | queueFull
  | resourceBusy
  | held
  | notHolder
  | waitingAlready
  | notWaiting
  | permitLapsed
  | noPermit
  | empty
  deriving DecidableEq, Repr

/-- The status byte (R203). -/
def Status.byte : Status → Byte
  | .ok => 0x00
  | .refusedState => 0x01
  | .refusedArg => 0x02
  | .noConfig => 0x03
  | .noTimebase => 0x04
  | .queueFull => 0x05
  | .resourceBusy => 0x06
  | .held => 0x07
  | .notHolder => 0x08
  | .waitingAlready => 0x09
  | .notWaiting => 0x0A
  | .permitLapsed => 0x0B
  | .noPermit => 0x0C
  | .empty => 0x0D

/-- A field that names a station, or FFh for none (R203). -/
def optStationByte : Option Station → Byte
  | some v => stationByte v
  | none => 0xFF

/-! ## Notification records (R204) -/

/-- The code of an outcome in a DONE record (R204). -/
def ReqOutcome.code : ReqOutcome → Byte
  | .granted => 0x01
  | .waiting _ => 0x02
  | .refusedHeld => 0x03
  | .refusedWaiting => 0x04
  | .refusedBusy => 0x05
  | .refusedFull => 0x06
  | .released => 0x07
  | .notHolder => 0x08
  | .withdrawn => 0x09
  | .notWaiting => 0x0A
  | .stray => 0x0B
  | .notSent => 0x0C
  | .cancelled => 0x0D

/-- The position that a DONE with outcome WAITING carries, 0 for the others (R179). -/
def ReqOutcome.position : ReqOutcome → Nat
  | .waiting p => p
  | .granted | .refusedHeld | .refusedWaiting | .refusedBusy | .refusedFull | .released | .notHolder
  | .withdrawn | .notWaiting | .stray | .notSent | .cancelled => 0

/-- READ_STATUS byte 0 (R203). -/
def StationState.code : StationState → Byte
  | .offline => 0x00
  | .joinWait => 0x01
  | .snapshot => 0x02
  | .synced => 0x03
  | .member => 0x04
  | .leaving _ _ => 0x05
  | .faulted _ => 0x06

/-- READ_STATUS byte 1 (R203). -/
def StationState.detail : StationState → Byte
  | .leaving .stopping _ => 0x01
  | .leaving .rejoin _ => 0x02
  | .faulted .joinFailed => 0x01
  | .faulted .refusedConfig => 0x02
  | .faulted .duplicate => 0x03
  | .faulted .receiverMuted => 0x04
  | .offline | .joinWait | .snapshot | .synced | .member => 0x00

/-- The code of a STATION record (R204). -/
def StationCause.code : StationCause → Byte
  | .founded => 0x01
  | .joined => 0x02
  | .stop => 0x03
  | .left => 0x04
  | .diverged => 0x05
  | .evicted => 0x06
  | .fault .joinFailed => 0x07
  | .fault .refusedConfig => 0x08
  | .fault .duplicate => 0x09
  | .fault .receiverMuted => 0x0A

/-- The four bytes of a notification record: kind, subject, detail, code (R204). Bit 3 of DONE's detail, which R204 does
not name, is written 0 (DESIGN CHOICE, log 37). -/
def Note.bytes : Note → List Byte
  | .done t o r => [0x01, resourceByte r, byteOf (16 * t.val + ReqOutcome.position o), ReqOutcome.code o]
  | .granted r m => [0x02, resourceByte r, 0x00, modeByte m]
  | .lost r c => [0x03, resourceByte r, 0x00, match c with | .expired => 0x01 | .lapsed => 0x02 | .surrendered => 0x03]
  | .waitEnded r => [0x04, resourceByte r, 0x00, 0x03]
  | .station st c => [0x05, 0x00, StationState.code st, StationCause.code c]
  | .membership v c => [0x06, stationByte v, 0x00, match c with | .joined => 0x01 | .left => 0x02 | .evicted => 0x03]
  | .timebase c =>
    [0x07, 0x00, 0x00, match c with | .qualified => 0x01 | .failed => 0x02 | .recovered => 0x03 | .restored => 0x04]
  | .permit c => [0x08, 0x00, 0x00, match c with | .lapsedEarly => 0x01 | .lapsedLate => 0x02 | .restored => 0x03]
  | .overflow n => [0x09, 0x00, byteOf n, 0x00]

end Sys2Proof.Machine
end

