-- ==== Sys2Proof/Machine/Table.lean ====
section
/-! DEFINITION. One lease table entry: who holds and waits, grants, removals and promotion (sections 1.1, 1.3, 1.4). -/

namespace Sys2Proof

/-- The entry mode that a grant of a lease mode makes (R1). -/
def LeaseMode.toEntryMode : LeaseMode → EntryMode
  | .shared => .shared
  | .exclusive => .exclusive

/-- The station holds a slot in the entry. -/
def Entry.holds (e : Entry) (v : Station) : Bool := e.holders.any (fun h => h.station == v)

/-- The station has a waiter record in the entry. -/
def Entry.waits (e : Entry) (v : Station) : Bool := e.waiters.any (fun w => w.station == v)

/-- The station holds a slot with that slot generation: what an EXPIRE must name to match (R22). -/
def Entry.holdsAt (e : Entry) (v : Station) (g : Word16) : Bool :=
  e.holders.any (fun h => h.station == v && h.gen == g)

/-- Adds a slot, keeping ascending station number (R1). -/
def insertSlot (x : Slot) : List Slot → List Slot
  | [] => [x]
  | y :: ys => if x.station < y.station then x :: y :: ys else y :: insertSlot x ys

/-- A grant: the generation advances, the new slot takes it, and a FREE entry takes the mode granted (R3, R11, R13). -/
def Entry.grant (e : Entry) (v : Station) (m : LeaseMode) : Entry :=
  { mode := if e.mode = .free then m.toEntryMode else e.mode
    gen := e.gen + 1
    holders := insertSlot { station := v, gen := e.gen + 1 } e.holders
    waiters := e.waiters }

/-- A renewal of the station's slot (R18). -/
def Entry.renew (e : Entry) (v : Station) : Entry :=
  { e with
    gen := e.gen + 1
    holders := e.holders.map (fun h => if h.station = v then { h with gen := e.gen + 1 } else h) }

/-- Removal of the station's slot; the last one leaves the entry FREE (R1, R16). -/
def Entry.dropHolder (e : Entry) (v : Station) : Entry :=
  let hs := e.holders.filter (fun h => h.station != v)
  { e with holders := hs, mode := if hs.isEmpty then .free else e.mode }

/-- Removal of the station's waiter record, closing the gap (R20). -/
def Entry.dropWaiter (e : Entry) (v : Station) : Entry :=
  { e with waiters := e.waiters.filter (fun w => w.station != v) }

/-- A head waiter that wants this mode is granted (R10). -/
def Entry.admits (e : Entry) : LeaseMode → Bool
  | .exclusive => e.holders.isEmpty
  | .shared => e.mode != .exclusive && decide (e.holders.length < Config.holderLimit)

/-- A grant made by promotion: the station, the mode and the slot generation it took (R11). -/
structure Grant where
  station : Station
  mode : LeaseMode
  gen : Word16
  deriving DecidableEq, Repr

/-- Promotion over a waiter queue: grants from the head while the entry admits the head (R10). -/
def promoteFrom : List Waiter → Entry → Entry × List Grant
  | [], e => ({ e with waiters := [] }, [])
  | w :: ws, e =>
    if e.admits w.mode then
      let granted := { e.grant w.station w.mode with waiters := ws }
      let rest := promoteFrom ws granted
      (rest.1, { station := w.station, mode := w.mode, gen := granted.gen } :: rest.2)
    else ({ e with waiters := w :: ws }, [])

/-- Promotion in an entry (R10): the entry after it and the grants in queue order. -/
def Entry.promote (e : Entry) : Entry × List Grant := promoteFrom e.waiters e

/-- The decision of R12 on a CLAIM, first line whose condition holds. -/
inductive ClaimResult where
  | refusedHeld
  | refusedWaiting
  | granted
  | waiting
  | refusedBusy
  | refusedFull
  deriving DecidableEq, Repr

/-- R12. -/
def Entry.decideClaim (e : Entry) (v : Station) (m : LeaseMode) (wait : Bool) : ClaimResult :=
  if e.holds v then .refusedHeld
  else if e.waits v then .refusedWaiting
  else if e.mode = .free then .granted
  else if e.mode = .shared ∧ m = .shared ∧ e.waiters = [] ∧ e.holders.length < Config.holderLimit then .granted
  else if wait ∧ e.waiters.length < Config.waiterLimit then .waiting
  else if wait then .refusedFull
  else .refusedBusy

/-- The entry after a CLAIM (R12 to R15). -/
def Entry.claim (e : Entry) (v : Station) (m : LeaseMode) (wait : Bool) : Entry :=
  match e.decideClaim v m wait with
  | .granted => e.grant v m
  | .waiting => { e with waiters := e.waiters ++ [{ station := v, mode := m }] }
  | .refusedHeld | .refusedWaiting | .refusedBusy | .refusedFull => e

/-- R1 and R2 as a check: mode and holders agree, slots ascend, the bounds hold, a station appears once, a FREE
entry has no waiters. -/
def Entry.consistent (e : Entry) : Bool :=
  (match e.mode with
   | .free => e.holders.isEmpty && e.waiters.isEmpty
   | .exclusive => e.holders.length == 1
   | .shared => decide (1 ≤ e.holders.length) && decide (e.holders.length ≤ Config.holderLimit))
  && decide (e.holders.Pairwise (fun a b => a.station < b.station))
  && decide (e.waiters.length ≤ Config.waiterLimit)
  && decide ((e.waiters.map Waiter.station).Nodup)
  && e.holders.all (fun h => !e.waits h.station)

/-- R10 as a check: the head waiter is one that promotion would not grant. -/
def Entry.settled (e : Entry) : Bool :=
  match e.waiters with
  | [] => true
  | w :: _ => !e.admits w.mode

end Sys2Proof
end

