-- ==== Sys2Proof/Machine/Flags.lean ====
section
/-! DEFINITION. What is read from the state: configuration fields, own view of the replica, the output levels
(R148, R186), pins (section 10.2), and the bytes that status and query commands answer. -/

namespace Sys2Proof.Machine

/-! ## Configuration fields, read from the record as it stands (R162) -/

/-- A field of the record; on the line a record is always held (R58), and without one the value stands as log 24 says. -/
def State.configField (s : State) (read : ConfigRecord → Nat) : Nat :=
  match s.config with
  | some c => read c
  | none => 0

/-- This station's number (R161). -/
def State.own (s : State) : Station :=
  match s.config with
  | some c => c.station
  | none => 0

/-- The network digest (R163). -/
def State.digest (s : State) : Word16 :=
  match s.config with
  | some c => c.digest
  | none => 0

/-- Renewal due at L/2 (section 5.1). -/
def State.renewalMs (s : State) : Nat := 50 * s.configField ConfigRecord.leaseTerm

/-- Self-lapse at L, or at 3L/4 while DEGRADED (R111). -/
def State.lapseMs (s : State) : Nat :=
  (if s.tm.timebase = .degraded then 75 else 100) * s.configField ConfigRecord.leaseTerm

/-- Expiry verdict at 5L/4 plus the stagger (R114). -/
def State.expiryMs (s : State) : Nat := 125 * s.configField ConfigRecord.leaseTerm + 2 * s.own.val

/-- Presence send at P (R117). -/
def State.presenceMs (s : State) : Nat := 10 * s.configField ConfigRecord.presencePeriod

/-- Eviction verdict at M x P plus the stagger (R119). -/
def State.evictionMs (s : State) : Nat :=
  10 * s.configField ConfigRecord.missLimit * s.configField ConfigRecord.presencePeriod + 2 * s.own.val

/-- Join wait and segment stall at 4 x P (R61, R62). -/
def State.joinWaitMs (s : State) : Nat := 40 * s.configField ConfigRecord.presencePeriod

/-- The keep window opens at 50 x K and the period ends at 100 x K (R141). -/
def State.keepWindowMs (s : State) : Nat := 50 * s.configField ConfigRecord.keepPeriod
def State.keepPeriodMs (s : State) : Nat := 100 * s.configField ConfigRecord.keepPeriod

/-- Bit times in one millisecond at the record's bit rate (R83). -/
def State.bitsPerMs (s : State) : Nat := s.configField (fun c => c.rate.bitsPerMs)

/-- A running timer stands at its threshold or past it; a stopped one does not. -/
def timerReached (timer : Option Nat) (threshold : Nat) : Bool :=
  match timer with
  | some n => decide (threshold ≤ n)
  | none => false

/-! ## Station state -/

/-- The replica is live: SYNCED, MEMBER, LEAVING with a live replica (R6, R75). -/
def StationState.live : StationState → Bool
  | .synced | .member | .leaving _ .live => true
  | .offline | .joinWait | .snapshot | .leaving _ .cleared | .faulted _ => false

/-- The listening states (R106). -/
def StationState.onLine : StationState → Bool
  | .joinWait | .snapshot | .synced | .member | .leaving _ _ => true
  | .offline | .faulted _ => false

/-- FAULTED with any cause. -/
def StationState.isFaulted : StationState → Bool
  | .faulted _ => true
  | .offline | .joinWait | .snapshot | .synced | .member | .leaving _ _ => false

/-- LEAVING with any intent and replica. -/
def StationState.isLeaving : StationState → Bool
  | .leaving _ _ => true
  | .offline | .joinWait | .snapshot | .synced | .member | .faulted _ => false

/-- LAPSED with any cause. -/
def Permit.isLapsed : Permit → Bool
  | .lapsed _ => true
  | .none | .early | .window => false

/-- The Line Unit receives and may transmit (R86, R99, R106). The integration wait counts as not listening, so that the
transmitter stands in IDLE until it ends: the model's choice (log 38). -/
def State.listening (s : State) : Bool := s.sc.station.onLine && !s.lu.integrating && !s.lu.muted

/-! ## This station's view of the replica -/

/-- Entry `r` of the lease table. -/
def State.entry (s : State) (r : Resource) : Entry := s.replica.entries[r]

/-- Roster entry of a station. -/
def State.rosterOf (s : State) (v : Station) : RosterEntry := s.replica.roster[v]

/-- The replica shows this station holding `r`. -/
def State.holdsOwn (s : State) (r : Resource) : Bool := (s.entry r).holds s.own

/-- The replica shows this station waiting on `r`. -/
def State.waitsOwn (s : State) (r : Resource) : Bool := (s.entry r).waits s.own

/-- The own-hold record of `r`. -/
def State.holdOf (s : State) (r : Resource) : Option OwnHold := s.tu.holds.find? (fun h => h.r == r)

/-- The lapsed mark of `r`; no when no record exists (R174). -/
def State.lapsedMark (s : State) (r : Resource) : Bool := s.tu.holds.any (fun h => h.r == r && h.lapsed)

/-- The surrender mark of `r` (R121). -/
def State.surrenderMark (s : State) (r : Resource) : Option SurrenderMark :=
  (s.tu.surrender.find? (fun m => m.r == r)).map SurrenderItem.mark

/-- `r` is in the surrender set. -/
def State.surrendering (s : State) (r : Resource) : Bool := s.tu.surrender.any (fun m => m.r == r)

/-- A host RELEASE of `r` is pending, QUEUED or ON_AIR (R148). -/
def State.releasePending (s : State) (r : Resource) : Bool :=
  s.requests.any (fun q => q.r == r && q.kind == .release)

/-- A host WITHDRAW of `r` is pending (R167). -/
def State.withdrawPending (s : State) (r : Resource) : Bool :=
  s.requests.any (fun q => q.r == r && q.kind == .withdraw)

/-- A request record names `r` (R165). -/
def State.requestFor (s : State) (r : Resource) : Option Request := s.requests.find? (fun q => q.r == r)

/-- Every resource in ascending order. -/
def allResources : List Resource := List.finRange 64

/-- Every station in ascending order. -/
def allStations : List Station := List.finRange 32

/-- Every grant line. -/
def allLines : List (Fin 8) := List.finRange 8

/-- A valid actor (R7): member role, roster state MEMBER, equal incarnation. -/
def State.validActor (s : State) (f : Frame) : Bool :=
  f.role == .member && (s.rosterOf f.sender).state == .member && f.inc == (s.rosterOf f.sender).inc

/-- The lowest-numbered station whose roster entry is MEMBER (R35). -/
def State.lowestMember (s : State) : Option Station := allStations.find? (fun v => (s.rosterOf v).state == .member)

/-- A due RENEW of the record may be offered (R109). -/
def State.renewAllowed (s : State) (h : OwnHold) : Bool :=
  s.sc.station == .member && !h.lapsed && !s.surrendering h.r && !s.releasePending h.r && !s.kp.permit.isLapsed

/-! ## Output levels -/

/-- The drive condition of a mapped line (R148). -/
def State.driveCondition (s : State) (m : LineMap) : Bool :=
  s.sc.station == .member && s.holdsOwn m.r
  && (m.qualifier == .any || (s.entry m.r).mode == .exclusive)
  && !s.lapsedMark m.r && !s.surrendering m.r && !s.releasePending m.r && !s.kp.permit.isLapsed

/-- The level that R148 gives line `x`, `true` for active. -/
def State.lineCondition (s : State) (x : Fin 8) : Bool :=
  match s.gou.maps[x] with
  | some m => s.driveCondition m
  | none => false

/-- The threshold N in force; 1 while no record is held (R187). -/
def State.threshold (s : State) : Nat :=
  match s.config with
  | some c => c.irqThreshold
  | none => 1

/-- The level that R186 gives IRQ#, `true` for asserted: threshold, idle (only with a record, R187) or fault. -/
def State.irqCondition (s : State) : Bool :=
  decide (s.threshold ≤ s.nu.queue.length)
  || (s.config.isSome && decide (1 ≤ s.nu.queue.length) && s.nu.idle == .reached)
  || s.sc.station.isFaulted

/-- The level of an output pin. -/
inductive PinLevel where
  | highZ
  | high
  | low
  deriving DecidableEq, Repr

/-- The pin of an active-low output driven from a stored level (R193, R194, section 10.2). -/
def State.outputPin (s : State) (asserted : Bool) : PinLevel :=
  if !s.power.drivers then .highZ
  else if s.power.phase ≠ .running then .high
  else if asserted then .low else .high

/-- IRQ# (R193). -/
def State.irqPin (s : State) : PinLevel := s.outputPin s.nu.irq

/-- GNTx# (R194). -/
def State.grantPin (s : State) (x : Fin 8) : PinLevel := s.outputPin s.gou.active[x]

/-- SDO is driven only while CS# is low, no reset runs and VDD is past the drive threshold (R192). -/
def State.sdoDriven (s : State) (csLow : Bool) : Bool :=
  csLow && s.power.drivers && s.power.phase == .running

/-- Byte `i` of SDO in a transaction whose command is taken after `taken` bytes (R153, R154): 00h while command and
arguments are clocked in, then the status and the response, then 00h. -/
def sdoByte (taken : Nat) (response : List Byte) (i : Nat) : Byte :=
  if i < taken then 0x00 else response.getD (i - taken) 0x00

/-- The bit of SDO in bit time `j` of a transaction, the most significant bit of a byte first (R192). -/
def sdoBit (taken : Nat) (response : List Byte) (j : Nat) : Bool :=
  (byteBits (sdoByte taken response (j / 8))).getD (j % 8) false

/-- SDO in bit time `j` of a transaction of command `c` (R192). -/
def State.sdoPin (s : State) (csLow : Bool) (c : Instr) (j : Nat) : PinLevel :=
  if s.sdoDriven csLow then (if sdoBit (1 + argumentBytes c) s.response j then .high else .low) else .highZ

/-- What the line driver does (R190, section 10.2): off, sending the bits of a frame, or DOMINANT for a jam or a veto. -/
inductive LineDrive where
  | released
  | sending (f : Frame)
  | dominant
  deriving DecidableEq, Repr

/-- The line driver (R190, R191). -/
def State.lineDrive (s : State) : LineDrive :=
  if !s.power.drivers then .released
  else if s.lu.rx = .veto ∧ s.lu.rxFailed then .dominant
  else match s.lu.tx, s.lu.current with
    | .jam, _ => .dominant
    | .send, some a => .sending a.frame
    | _, _ => .released

/-! ## Response bytes -/

/-- READ_STATUS byte 3 (R203). -/
def TimebaseMonitor.code (t : TimebaseMonitor) : Byte :=
  match t.timebase, t.recovered with
  | .startup, _ => 0x00
  | .reference, _ => 0x01
  | .degraded, false => 0x02
  | .degraded, true => 0x03

/-- READ_STATUS byte 4 (R203). -/
def Permit.code : Permit → Byte
  | .none => 0x00
  | .early => 0x01
  | .window => 0x02
  | .lapsed .early => 0x03
  | .lapsed .late => 0x04

/-- A byte with bit `x` set for each line `x` that is chosen. -/
def lineBits (chosen : Fin 8 → Bool) : Byte :=
  byteOf ((allLines.map (fun x => if chosen x then 2 ^ x.val else 0)).foldl (· + ·) 0)

/-- The 13 bytes of READ_STATUS (R158, R203). -/
def State.statusBytes (s : State) : List Byte :=
  [StationState.code s.sc.station, StationState.detail s.sc.station, if s.config.isSome then 0x01 else 0x00,
   TimebaseMonitor.code s.tm, Permit.code s.kp.permit, byteOf s.sc.attemptNo, byteOf s.sc.catchUp.length,
   lineBits (fun x => s.gou.active[x]), byteOf s.requests.length, byteOf s.nu.queue.length]
  ++ wordBytes s.replica.tsn ++ [s.sc.ownInc]

/-- The byte of READ_CAUSE (R203). Bits 7 to 3, which R203 does not name, read 0 (DESIGN CHOICE, log 37). -/
def ResetCause.byte (c : ResetCause) : Byte :=
  byteOf ((if c.power then 1 else 0) + (if c.pin then 2 else 0) + (if c.command then 4 else 0))

/-- The entry mode in QUERY_ENTRY (R203). -/
def entryModeByte : EntryMode → Byte
  | .free => 0x00
  | .shared => 0x01
  | .exclusive => 0x02

/-- The surrender mark in QUERY_ENTRY (R203). -/
def surrenderMarkByte : Option SurrenderMark → Byte
  | none => 0x00
  | some .hold => 0x01
  | some .wait => 0x02

/-- The response of QUERY_ENTRY after its length byte (R174, R203). -/
def State.entryBytes (s : State) (r : Resource) : List Byte :=
  let e := s.entry r
  [resourceByte r, entryModeByte e.mode] ++ wordBytes e.gen
  ++ byteOf e.holders.length :: e.holders.flatMap slotBytes
  ++ byteOf e.waiters.length :: e.waiters.flatMap (fun w => [stationByte w.station, modeByte w.mode])
  ++ wordBytes s.replica.tsn
  ++ [surrenderMarkByte (s.surrenderMark r),
      match s.requestFor r with | some q => byteOf q.tag.val | none => 0xFF,
      if s.lapsedMark r then 0x01 else 0x00,
      lineBits (fun x => s.gou.active[x] && (match s.gou.maps[x] with | some m => m.r == r | none => false))]

/-- The roster state in QUERY_ROSTER (R203). -/
def rosterStateByte : RosterState → Byte
  | .absent => 0x00
  | .joining => 0x01
  | .member => 0x02

/-- The response of QUERY_ROSTER after its length byte (R175, R203). -/
def State.rosterBytes (s : State) (v : Station) : List Byte :=
  let e := s.rosterOf v
  [rosterStateByte e.state, e.inc, optStationByte e.provider, optStationByte e.providingFor]
  ++ wordBytes s.replica.tsn

/-- The response of QUERY_REQUEST after its length byte (R176, R203): mode and wait read 0 for RELEASE and WITHDRAW. -/
def Request.bytes (q : Request) : List Byte :=
  let state : Byte := match q.state with | .queued => 0x01 | .onAir => 0x02
  match q.kind with
  | .claim m w => [byteOf q.tag.val, 0x01, resourceByte q.r, modeByte m, waitByte w, state, byteOf q.count]
  | .release => [byteOf q.tag.val, 0x02, resourceByte q.r, 0x00, 0x00, state, byteOf q.count]
  | .withdraw => [byteOf q.tag.val, 0x03, resourceByte q.r, 0x00, 0x00, state, byteOf q.count]

end Sys2Proof.Machine
end

