-- ==== Sys2Proof/Machine/Ops.lean ====
section
/-! DEFINITION. The shared operations over the state: notifications, request completion, the surrender set, the Timer
Unit's reports, candidates, clearing the replica, and the recomputation of what follows from the rest. -/

namespace Sys2Proof.Machine

/-! ## Notifications (R180, R181) -/

/-- A record arrives: appended, the idle timer starting if the queue was empty, or dropped from a full queue. -/
def NoteUnit.arrive (n : NoteUnit) (x : Note) : NoteUnit :=
  if n.queue.length < Config.noteQueueSize then
    { n with queue := n.queue ++ [x], idle := if n.queue.isEmpty then .running 0 else n.idle }
  else { n with dropped := min 255 (n.dropped + 1) }

/-- R180. -/
def State.note (s : State) (x : Note) : State := s.setNu (s.nu.arrive x)

/-! ## Lists -/

/-- The first element that satisfies `p`, changed in place. -/
def updateFirst {α : Type} (p : α → Bool) (f : α → α) : List α → List α
  | [] => []
  | x :: xs => if p x then f x :: xs else x :: updateFirst p f xs

/-! ## The current attempt (R92) -/

/-- An attempt of this station is on the line. -/
def LineUnit.sending (l : LineUnit) : Bool := l.tx == .send || l.tx == .jam || l.tx == .veto

/-- A source withdraws its frame: an attempt already begun with it runs on, marked (R92, log 29). -/
def State.withdrawAttempt (s : State) (p : Source → Bool) : State :=
  match s.lu.current with
  | some a => if p a.source then s.setLu { s.lu with current := some { a with withdrawn := true } } else s
  | none => s

/-! ## Request queue (R170 to R172) -/

/-- A record completes: it leaves the queue and DONE is produced; a tag that names no record is discarded (R170). -/
def State.completeRequest (s : State) (t : Fin 16) (o : ReqOutcome) : State :=
  match s.requests.find? (fun q => q.tag == t) with
  | some q => (s.setRequests (s.requests.filter (fun q => q.tag != t))).note (.done t o q.r)
  | none => s

/-- The records chosen complete CANCELLED in queue order; one whose frame is in an attempt leaves it to run on (R172). -/
def State.cancelRequests (s : State) (p : Request → Bool) : State :=
  let hit := s.requests.filter p
  let s1 := s.withdrawAttempt (fun src => match src with | .host t => hit.any (fun q => q.tag == t) | _ => false)
  hit.foldl (fun s q => s.note (.done q.tag .cancelled q.r)) (s1.setRequests (s.requests.filter (fun q => !p q)))

/-! ## Surrender set (R121 to R124) -/

/-- Members in ascending resource number, which is the order their frames are offered in (R121). -/
def insertSurrender (x : SurrenderItem) : List SurrenderItem → List SurrenderItem
  | [] => [x]
  | y :: ys => if x.r < y.r then x :: y :: ys else y :: insertSurrender x ys

/-- Entry to the set; a resource already in it stays as it is (R122). -/
def State.surrenderAdd (s : State) (r : Resource) (mark : SurrenderMark) : State :=
  if s.surrendering r then s
  else s.setTu { s.tu with surrender := insertSurrender { r := r, mark := mark, count := 0 } s.tu.surrender }

/-- Departure from the set (R124). -/
def State.surrenderRemove (s : State) (r : Resource) : State :=
  let s1 := s.withdrawAttempt (fun src => src == .surrender r)
  s1.setTu { s1.tu with surrender := s1.tu.surrender.filter (fun m => m.r != r) }

/-- This station is granted `r`: a wait in the set turns to hold with a fresh count; while the permit is LAPSED the
resource enters the set (R122, R145). -/
def State.surrenderOnGrant (s : State) (r : Resource) : State :=
  let s1 := s.setTu { s.tu with
    surrender := s.tu.surrender.map (fun m =>
      if m.r = r ∧ m.mark = .wait then { m with mark := .hold, count := 0 } else m) }
  if s1.kp.permit.isLapsed then s1.surrenderAdd r .hold else s1

/-! ## Own-hold records (R108) -/

/-- Records in ascending resource number, the order in which RENEWs are chosen and holds lapse (R101, R111). -/
def insertHold (x : OwnHold) : List OwnHold → List OwnHold
  | [] => [x]
  | y :: ys => if x.r < y.r then x :: y :: ys else y :: insertHold x ys

/-- A record is opened (R108). -/
def State.openHold (s : State) (r : Resource) (g : Word16) : State :=
  s.setTu { s.tu with
    holds := insertHold { r := r, gen := g, elapsed := 0, running := true, lapsed := false, renewal := .idle }
      (s.tu.holds.filter (fun h => h.r != r)) }

/-- This station's slot is renewed (R108, R110): in LEAVING a stopped record stays stopped (R112). -/
def OwnHold.renewed (h : OwnHold) (g : Word16) (leaving : Bool) : OwnHold :=
  { h with
    gen := g
    elapsed := 0
    running := if leaving then h.running else true
    renewal := match h.renewal with | .barred => .barred | .idle | .candidate _ => .idle }

/-- R108, R110. -/
def State.renewHold (s : State) (r : Resource) (g : Word16) : State :=
  s.setTu { s.tu with
    holds := s.tu.holds.map (fun h => if h.r = r then h.renewed g s.sc.station.isLeaving else h) }

/-- The record is closed and its RENEW withdrawn (R108). -/
def State.closeHold (s : State) (r : Resource) : State :=
  let s1 := s.withdrawAttempt (fun src => src == .renew r)
  s1.setTu { s1.tu with holds := s1.tu.holds.filter (fun h => h.r != r) }

/-- One record changed in place. -/
def State.updateHold (s : State) (r : Resource) (f : OwnHold → OwnHold) : State :=
  s.setTu { s.tu with holds := s.tu.holds.map (fun h => if h.r = r then f h else h) }

/-! ## Verdicts and watches (R113 to R120) -/

/-- The verdict's attempt has begun and goes on: it is the frame on the line (R87, R115). -/
def State.verdictInAttempt (s : State) (v : Verdict) : Bool :=
  s.lu.sending && s.lu.current.any (fun a => a.source == .verdict v)

/-- Verdicts are withdrawn from the queue, but for one whose attempt has begun (R115, R119). -/
def State.dropVerdicts (s : State) (p : Verdict → Bool) : State :=
  s.setTu { s.tu with
    verdicts := s.tu.verdicts.filter (fun i => !p i.verdict || s.verdictInAttempt i.verdict) }

/-- An EXPIRE against a slot of station `v` in entry `r`. -/
def Verdict.names (r : Resource) (v : Station) : Verdict → Bool
  | .expire r' v' _ => r' == r && v' == v
  | .evict _ _ => false

/-- An EVICT against station `v`. -/
def Verdict.evicts (v : Station) : Verdict → Bool
  | .evict v' _ => v' == v
  | .expire _ _ _ => false

/-- A watch of `r` and `v`. -/
def ExpiryWatch.on (w : ExpiryWatch) (r : Resource) (v : Station) : Bool := w.r == r && w.holder == v

/-- An expiry watch is opened from zero (R113). -/
def State.openExpiry (s : State) (r : Resource) (v : Station) (g : Word16) : State :=
  s.setTu { s.tu with
    expiry := s.tu.expiry.filter (fun w => !w.on r v)
      ++ [{ r := r, holder := v, gen := g, elapsed := 0, queued := false }] }

/-- The slot is renewed: the watch restarts and its verdict is withdrawn (R113, R115). -/
def State.restartExpiry (s : State) (r : Resource) (v : Station) (g : Word16) : State :=
  let s1 := s.dropVerdicts (Verdict.names r v)
  s1.setTu { s1.tu with
    expiry := s1.tu.expiry.map (fun w => if w.on r v then { w with gen := g, elapsed := 0, queued := false } else w) }

/-- The slot is removed: the watch is closed and its verdict withdrawn (R113, R115). -/
def State.closeExpiry (s : State) (r : Resource) (v : Station) : State :=
  let s1 := s.dropVerdicts (Verdict.names r v)
  s1.setTu { s1.tu with expiry := s1.tu.expiry.filter (fun w => !w.on r v) }

/-- A presence watch is opened from zero (R118). -/
def State.openPresence (s : State) (v : Station) (inc : Byte) : State :=
  s.setTu { s.tu with
    presence := s.tu.presence.filter (fun w => w.station != v)
      ++ [{ station := v, inc := inc, elapsed := 0, queued := false }] }

/-- The watch on a removed station is closed and its EVICT withdrawn (R46, R118). -/
def State.closePresence (s : State) (v : Station) : State :=
  let s1 := s.dropVerdicts (Verdict.evicts v)
  s1.setTu { s1.tu with presence := s1.tu.presence.filter (fun w => w.station != v) }

/-- A frame from `v` with incarnation `inc` is accepted: a watch of that incarnation restarts and its EVICT is
withdrawn (R118, R119). -/
def State.hearStation (s : State) (v : Station) (inc : Byte) : State :=
  if s.tu.presence.any (fun w => w.station == v && w.inc == inc) then
    let s1 := s.dropVerdicts (Verdict.evicts v)
    s1.setTu { s1.tu with
      presence := s1.tu.presence.map (fun w => if w.station = v then { w with elapsed := 0, queued := false } else w) }
  else s

/-- A verdict is queued with attempt count 0 (R114, R119). -/
def State.queueVerdict (s : State) (v : Verdict) : State :=
  s.setTu { s.tu with verdicts := s.tu.verdicts ++ [{ verdict := v, count := 0 }] }

/-- Verdicts may be queued: MEMBER and not DEGRADED (R114). -/
def State.mayJudge (s : State) : Bool := s.sc.station == .member && s.tm.timebase != .degraded

/-- The EXPIRE of a watch that stands past its threshold is queued if it may be (R114). -/
def State.offerExpire (s : State) (w : ExpiryWatch) : State :=
  if s.mayJudge ∧ ¬ w.queued ∧ s.expiryMs ≤ w.elapsed then
    let s1 := s.setTu { s.tu with
      expiry := s.tu.expiry.map (fun x => if x.on w.r w.holder then { x with queued := true } else x) }
    s1.queueVerdict (.expire w.r w.holder w.gen)
  else s

/-- The EVICT of a watch that stands past its threshold is queued if it may be (R119). -/
def State.offerEvict (s : State) (w : PresenceWatch) : State :=
  if s.mayJudge ∧ ¬ w.queued ∧ s.evictionMs ≤ w.elapsed then
    let s1 := s.setTu { s.tu with
      presence := s.tu.presence.map (fun x => if x.station = w.station then { x with queued := true } else x) }
    s1.queueVerdict (.evict w.station w.inc)
  else s

/-- Every overdue verdict is queued at once (R126, R135). The spec gives no order among them: EXPIREs first, in the order
their watches were opened, then EVICTs in that order (DESIGN CHOICE, log 36). -/
def State.offerOverdue (s : State) : State :=
  let s1 := s.tu.expiry.foldl State.offerExpire s
  s1.tu.presence.foldl State.offerEvict s1

/-- Every queued verdict is withdrawn, and its watch runs on with verdict state none; one whose attempt has begun stays,
and so does its watch's verdict state (R115, R119, R120). -/
def State.withdrawVerdicts (s : State) : State :=
  let s1 := s.dropVerdicts (fun _ => true)
  s1.setTu { s1.tu with
    expiry := s1.tu.expiry.map (fun w =>
      { w with queued := w.queued && s.verdictInAttempt (.expire w.r w.holder w.gen) })
    presence := s1.tu.presence.map (fun w => { w with queued := w.queued && s.verdictInAttempt (.evict w.station w.inc) }) }

/-- A verdict ends: it leaves the queue and its watch's verdict state is none (R116, R119). -/
def State.endVerdict (s : State) (v : Verdict) : State :=
  let s1 := s.setTu { s.tu with verdicts := s.tu.verdicts.filter (fun i => i.verdict != v) }
  match v with
  | .expire r h g =>
    s1.setTu { s1.tu with
      expiry := s1.tu.expiry.map (fun w => if w.on r h && w.gen == g then { w with queued := false } else w) }
  | .evict st i =>
    s1.setTu { s1.tu with
      presence := s1.tu.presence.map (fun w =>
        if w.station = st ∧ w.inc = i then { w with queued := false } else w) }

/-- The watch of a verdict restarts from zero (STRAY: R116, R119). -/
def State.restartWatchOf (s : State) (v : Verdict) : State :=
  match v with
  | .expire r h _ =>
    s.setTu { s.tu with
      expiry := s.tu.expiry.map (fun w => if w.on r h then { w with elapsed := 0, queued := false } else w) }
  | .evict st _ =>
    s.setTu { s.tu with
      presence := s.tu.presence.map (fun w => if w.station = st then { w with elapsed := 0, queued := false } else w) }

/-- An abandoned verdict is queued again if its watch still stands past its threshold (R116, R119). -/
def State.requeueVerdict (s : State) (v : Verdict) : State :=
  match v with
  | .expire r h _ =>
    match s.tu.expiry.find? (fun w => w.on r h) with
    | some w => s.offerExpire w
    | none => s
  | .evict st _ =>
    match s.tu.presence.find? (fun w => w.station == st) with
    | some w => s.offerEvict w
    | none => s

/-! ## Reports of the Replica Engine to the Timer Unit (R28) -/

/-- A holder slot is created (R108, R113, R145). -/
def State.slotCreated (s : State) (r : Resource) (v : Station) (g : Word16) : State :=
  if v = s.own then (s.openHold r g).surrenderOnGrant r else s.openExpiry r v g

/-- A holder slot is renewed (R18). -/
def State.slotRenewed (s : State) (r : Resource) (v : Station) (g : Word16) : State :=
  if v = s.own then s.renewHold r g else s.restartExpiry r v g

/-- A holder slot is removed (R108, R113). -/
def State.slotRemoved (s : State) (r : Resource) (v : Station) : State :=
  if v = s.own then s.closeHold r else s.closeExpiry r v

/-! ## Presence timer (R117) -/

/-- The presence timer is stopped, and with it the PRESENCE candidate (log 30). -/
def State.stopPresence (s : State) : State :=
  let s1 := s.withdrawAttempt (fun src => src == .presence)
  s1.setTu { s1.tu with presenceTimer := none, presenceOffer := none }

/-- The presence timer starts from zero. -/
def State.startPresence (s : State) : State := s.setTu { s.tu with presenceTimer := some 0 }

/-- The presence condition of a station state and a timer that stands at P or more (R117). -/
def State.presenceCondition (s : State) : Bool :=
  (match s.sc.station with
   | .member | .synced | .snapshot => true
   | .joinWait => s.sc.joinAccepted
   | .offline | .leaving _ _ | .faulted _ => false)
  && timerReached s.tu.presenceTimer s.presenceMs

/-! ## Clearing (R4, R32, R49, R51, R56, R72, R125) -/

/-- A clearing of the replica: lease table, roster, TSN and mismatch record take their cleared values, the Timer Unit
is emptied, the control frame queue is emptied and any shadow copy discarded. -/
def State.clearReplica (s : State) : State :=
  let s1 := (s.withdrawAttempt (fun _ => true)).setReplica Replica.cleared
  let s2 := s1.setTu TimerUnit.afterReset
  s2.setSc { s2.sc with control := [], shadow := none }

/-! ## Control frame queue (R56) -/

/-- JOIN, READY and LEAVE are the membership frames (R56). -/
def ControlKind.isMembership : ControlKind → Bool
  | .join | .ready | .leave => true
  | .joinRefuse _ _ => false

/-- Membership frames are withdrawn from the queue. -/
def State.withdrawMembership (s : State) : State :=
  let s1 := s.withdrawAttempt (fun src => match src with | .control k => k.isMembership | _ => false)
  s1.setSc { s1.sc with control := s1.sc.control.filter (fun c => !c.kind.isMembership) }

/-- Queueing a membership frame withdraws any membership frame still in the queue (R56). -/
def State.queueMembership (s : State) (k : ControlKind) : State :=
  let s1 := s.withdrawMembership
  s1.setSc { s1.sc with control := s1.sc.control ++ [{ kind := k, count := 0 }] }

/-- A refusal duty is queued; a fifth is dropped (R35, R56). -/
def State.queueRefusal (s : State) (v : Station) (a : Fin 4) : State :=
  if (s.sc.control.filter (fun c => !c.kind.isMembership)).length < Config.refusalLimit then
    s.setSc { s.sc with control := s.sc.control ++ [{ kind := .joinRefuse v a, count := 0 }] }
  else s

/-- The first item of a kind leaves the queue. -/
def State.removeControl (s : State) (k : ControlKind) : State :=
  s.setSc { s.sc with control := s.sc.control.eraseP (fun c => c.kind == k) }

/-! ## Candidates of the Transmit Selector (R101) -/

/-- A candidate: which it is, its attempt count, and its body as it would be sent now (R103). -/
structure Candidate where
  source : Source
  count : Nat
  body : Body
  deriving DecidableEq, Repr

/-- The join attempt number as it travels in a JOIN (R57). -/
def State.attemptField (s : State) : Fin 4 := ⟨s.sc.attemptNo % 4, Nat.mod_lt _ (by decide)⟩

/-- The body of a control frame; a JOIN's is written from current state (R103). -/
def State.controlBody (s : State) : ControlKind → Body
  | .join => .join s.digest s.attemptField
  | .ready => .ready
  | .leave => .leave
  | .joinRefuse v a => .joinRefuse v a

/-- The body of a verdict. -/
def Verdict.body : Verdict → Body
  | .expire r h g => .expire r h g
  | .evict v i => .evict v i

/-- The roster records of segment 0 (R202). -/
def rosterRecords (roster : Vector RosterEntry 32) : Vector RosterRec 32 :=
  ⟨(roster.toList.map (fun e => ({ state := e.state, providingFor := e.providingFor, inc := e.inc } : RosterRec))).toArray,
    by simp⟩

/-- The payload of segment `i` of a shadow copy, for `i` up to 16 (R70). -/
def Shadow.payload (x : Shadow) : Payload :=
  if x.next = 0 then .roster (rosterRecords x.roster)
  else
    let i : Fin 16 := ⟨(x.next - 1) % 16, Nat.mod_lt _ (by decide)⟩
    .entries i #v[x.entries[4 * i.val], x.entries[4 * i.val + 1], x.entries[4 * i.val + 2], x.entries[4 * i.val + 3]]

/-- The segment offered (R70, R71): none once segment 16 is accepted or the duty is given up. -/
def Shadow.candidate (x : Shadow) : List Candidate :=
  if x.next ≤ 16 ∧ ¬ x.givenUp then
    [{ source := .segment x.next, count := x.count, body := .snapshot x.joiner x.attempt x.tsn x.payload }]
  else []

/-- The RENEW of a record, when it is a candidate (R109). -/
def OwnHold.candidateOf (h : OwnHold) : Option Candidate :=
  match h.renewal with
  | .candidate n => some { source := .renew h.r, count := n, body := .renew h.r }
  | .idle | .barred => none

/-- The surrender frame of a member (R123). -/
def SurrenderItem.candidateOf (m : SurrenderItem) : Candidate :=
  { source := .surrender m.r
    count := m.count
    body := match m.mark with | .hold => .release m.r .surrender | .wait => .withdraw m.r .surrender }

/-- The frame of a request record (R168). -/
def Request.candidateOf (q : Request) : Candidate :=
  { source := .host q.tag
    count := q.count
    body := match q.kind with
      | .claim m w => .claim q.r m w (.host q.tag)
      | .release => .release q.r (.host q.tag)
      | .withdraw => .withdraw q.r (.host q.tag) }

/-- Surrender frames are offered in MEMBER and LEAVING (R123). -/
def State.surrenderOffered (s : State) : Bool := s.sc.station == .member || s.sc.station.isLeaving

/-- The candidates in the order of the seven classes (R101). -/
def State.candidates (s : State) : List Candidate :=
  s.sc.control.map (fun c => { source := .control c.kind, count := c.count, body := s.controlBody c.kind })
  ++ s.tu.holds.filterMap OwnHold.candidateOf
  ++ s.tu.verdicts.map (fun i => { source := .verdict i.verdict, count := i.count, body := i.verdict.body })
  ++ (match s.sc.shadow with | some x => x.candidate | none => [])
  ++ (if s.surrenderOffered then s.tu.surrender.map SurrenderItem.candidateOf else [])
  ++ (match s.requests with | q :: _ => [q.candidateOf] | [] => [])
  ++ (match s.tu.presenceOffer with | some n => [{ source := .presence, count := n, body := .presence }] | none => [])

/-! ## The Line Unit and the station state (R106) -/

/-- The reception is over, the line reads RECESSIVE and the receiver is IDLE (R94); a backoff held until then begins
(R93). -/
def LineUnit.endReception (l : LineUnit) : LineUnit :=
  { l with
    rx := .idle, rxFrame := none, rxRead := [], rxFailed := false, rxTimebase := false, rxDominant := 0
    backoffHeld := false }

/-- Entry to OFFLINE or FAULTED (R106): IDLE, DEFER and BACKOFF go to IDLE; an attempt on the line runs to its end. -/
def State.lineOff (s : State) : State :=
  let l := { s.lu with backoff := none, integrating := false }
  s.setLu (if l.sending then l else { l.endReception with tx := .idle, current := none })

/-- A join start in the Line Unit (R86, R99, R106): veto count and muted mark are cleared; out of OFFLINE or FAULTED
the integration wait begins, in which nothing is received, so what was left of a reception ends. -/
def State.lineJoinStart (s : State) (fromOff : Bool) : State :=
  let l := if fromOff && !s.lu.sending then s.lu.endReception else s.lu
  s.setLu { l with vetoCount := 0, muted := false, integrating := fromOff || s.lu.integrating }

/-! ## What follows from the rest -/

/-- RENEWs are offered and withdrawn as the conditions of R109 hold or not. -/
def State.renewalRule (s : State) (h : OwnHold) : OwnHold :=
  match h.renewal, s.renewAllowed h with
  | .idle, true => if s.renewalMs ≤ h.elapsed then { h with renewal := .candidate 0 } else h
  | .candidate _, false => { h with renewal := .idle }
  | .idle, false | .candidate _, true | .barred, _ => h

/-- R109, for every record; a RENEW in an attempt whose conditions fail is withdrawn from its source (R92). -/
def State.refreshRenewals (s : State) : State :=
  let s1 := s.withdrawAttempt (fun src => match src with
    | .renew r => !(s.tu.holds.any (fun h => h.r == r && s.renewAllowed h))
    | _ => false)
  s1.setTu { s1.tu with holds := s1.tu.holds.map s.renewalRule }

/-- IDLE and DEFER by whether a candidate waits while the station listens (R87). -/
def State.refreshTx (s : State) : State :=
  match s.lu.tx with
  | .idle | .defer =>
    s.setLu { s.lu with tx := if s.listening && !s.candidates.isEmpty then .defer else .idle }
  | .send | .jam | .veto | .backoff => s

/-- The eight levels of R148. -/
def State.lineLevels (s : State) : Vector Bool 8 :=
  #v[s.lineCondition 0, s.lineCondition 1, s.lineCondition 2, s.lineCondition 3,
     s.lineCondition 4, s.lineCondition 5, s.lineCondition 6, s.lineCondition 7]

/-- Grant lines recomputed (R149). -/
def State.refreshLines (s : State) : State := s.setGou { s.gou with active := s.lineLevels }

/-- IRQ# recomputed (R186). -/
def State.refreshIrq (s : State) : State := s.setNu { s.nu with irq := s.irqCondition }

/-- Everything that follows at once from the state: renewals, transmitter IDLE or DEFER, grant lines, IRQ#. -/
def State.settle (s : State) : State := s.refreshRenewals.refreshTx.refreshLines.refreshIrq

end Sys2Proof.Machine
end

