-- ==== Sys2Proof/Machine/Station.lean ====
section
/-! DEFINITION. The Station Controller: join starts, failed attempts, founding, member operation, leaving, rejoin and
faults (chapter 3), with the Keep Permit's part of them (R140). -/

namespace Sys2Proof.Machine

/-! ## Member operation -/

/-- Every expiry and presence watch restarts from zero, with verdict state none (R113, R118); outside MEMBER, and so
here, no verdict is queued (R114, R115). -/
def State.restartWatches (s : State) : State :=
  s.setTu { s.tu with
    verdicts := []
    expiry := s.tu.expiry.map (fun w => { w with elapsed := 0, queued := false })
    presence := s.tu.presence.map (fun w => { w with elapsed := 0, queued := false }) }

/-- The Keep Permit at entry to MEMBER (R140). -/
def State.permitStart (s : State) : State :=
  s.setKp (if s.configField ConfigRecord.keepPeriod = 0 then { permit := .none, timer := none }
           else { permit := .early, timer := some 0 })

/-- Entry to MEMBER (R64): counts cleared, watches restarted, presence timer and first keep period started. -/
def State.enterMember (s : State) : State :=
  let s1 := s.setSc { s.sc with station := .member, attemptNo := 0, readyRequeue := 0 }
  s1.restartWatches.startPresence.permitStart

/-- Every change out of MEMBER (R74, R140): requests complete CANCELLED, the Keep Permit goes to NONE. -/
def State.endMember (s : State) : State :=
  (s.cancelRequests (fun _ => true)).setKp { permit := .none, timer := none }

/-! ## Joining -/

/-- The items of a join that a join start, a failed attempt, a leave and a fault all empty. -/
def StationCtl.dropJoin (c : StationCtl) : StationCtl :=
  { c with catchUp := [], staged := none, joinTimer := none, stallTimer := none }

/-- A join start (R57, R106). -/
def State.joinStart (s : State) : State :=
  let fromOff := !s.sc.station.onLine
  let s1 := s.clearReplica
  let s2 := s1.setSc { s1.sc.dropJoin with
    station := .joinWait, attemptNo := 0, ownInc := 0, readyRequeue := 0, joinAccepted := false }
  (s2.queueMembership .join).lineJoinStart fromOff

/-- Entry to FAULTED from a state on the line (R79); elsewhere the condition is left without effect. -/
def State.enterFaulted (s : State) (c : FaultCause) : State :=
  if s.sc.station.onLine then
    let s1 := s.endMember.clearReplica
    let s2 := s1.setSc { s1.sc.dropJoin with station := .faulted c }
    s2.lineOff.note (.station (.faulted c) (.fault c))
  else s

/-- A failed join attempt (R62): the replica is cleared where it is live or loaded, the join's items are emptied, and
JOIN is queued with the next number, or the fourth failure enters FAULTED(JOIN_FAILED). -/
def State.failedAttempt (s : State) (loaded : Bool) : State :=
  let s1 := (if loaded then s.clearReplica else s).stopPresence.withdrawMembership
  let s2 := s1.setSc { s1.sc.dropJoin with
    attemptNo := s1.sc.attemptNo + 1, joinAccepted := false, memberHeard := false, lowerHeard := false,
    ownInc := 0, readyRequeue := 0 }
  if s2.sc.attemptNo < 4 then
    let s3 := s2.setSc { s2.sc with station := .joinWait }
    (s3.queueMembership .join).lineJoinStart false
  else s2.enterFaulted .joinFailed

/-- The acceptance of the own JOIN begins the wait (R59, R125). -/
def State.ownJoinAccepted (s : State) : State :=
  let s1 := s.setSc { s.sc with joinAccepted := true, memberHeard := false, lowerHeard := false, joinTimer := some 0 }
  s1.startPresence

/-- The replica of a group of one (R32, R49, R61). -/
def foundedReplica (own : Station) : Replica :=
  { Replica.cleared with
    roster := Replica.cleared.roster.set own.val { state := .member, inc := 1, provider := none, providingFor := none }
    tsn := 1 }

/-- Founding (R61). -/
def State.found (s : State) : State :=
  let s1 := (s.setReplica (foundedReplica s.own)).setSc { s.sc with ownInc := 1, catchUp := [], joinTimer := none }
  s1.enterMember.note (.station .member .founded)

/-! ## Leaving and rejoin -/

/-- Entry to LEAVING (R73, R77): member operation ends, verdicts are withdrawn but for one whose attempt has begun
(R115), own-hold records and the presence timer stop (R112, R125), what a join staged is emptied, LEAVE is queued. -/
def State.enterLeaving (s : State) (intent : LeaveIntent) (replica : LeaveReplica) : State :=
  let s1 := s.withdrawVerdicts.endMember.stopPresence
  let s2 := s1.setTu { s1.tu with holds := s1.tu.holds.map (fun h => { h with running := false }) }
  let s3 := s2.setSc { s2.sc.dropJoin with station := .leaving intent replica }
  s3.queueMembership .leave

/-- The end of LEAVING (R76). -/
def State.leavingEnd (s : State) : State :=
  match s.sc.station with
  | .leaving .stopping _ =>
    let s1 := s.clearReplica
    let s2 := s1.setSc { s1.sc with station := .offline }
    s2.lineOff.note (.station .offline .left)
  | .leaving .rejoin _ => s.joinStart
  | .offline | .joinWait | .snapshot | .synced | .member | .faulted _ => s

/-- A divergence report (R52, R77). -/
def State.divergence (s : State) : State :=
  match s.sc.station with
  | .synced | .member =>
    (s.enterLeaving .rejoin .live).note (.station (.leaving .rejoin .live) .diverged)
  | .offline | .joinWait | .snapshot | .leaving _ _ | .faulted _ => s

/-- A report that an applied EVICT has removed this station (R45, R78). -/
def State.ownEviction (s : State) : State :=
  match s.sc.station with
  | .synced | .member => s.endMember.joinStart.note (.station .joinWait .evicted)
  | .leaving _ _ => s.leavingEnd
  | .offline | .joinWait | .snapshot | .faulted _ => s

/-! ## Supplying a snapshot -/

/-- The start of a provider duty (R39, R69): the shadow copy is taken and segment 0 offered. -/
def State.takeShadow (s : State) (joiner : Station) (attempt : Fin 4) : State :=
  s.setSc { s.sc with
    shadow := some { roster := s.replica.roster, entries := s.replica.entries, tsn := s.replica.tsn, joiner := joiner,
                     attempt := attempt, next := 0, requeue := 0, givenUp := false, count := 0 } }

/-- The end of a provider duty (R72): the shadow and the cursor are discarded, a candidate segment withdrawn with them; a
segment whose attempt has begun is not. -/
def State.endDuty (s : State) : State := s.setSc { s.sc with shadow := none }

/-- Segment `i` is accepted: the cursor advances (R70). -/
def State.segmentAccepted (s : State) (i : Nat) : State :=
  match s.sc.shadow with
  | some x =>
    if x.next = i then s.setSc { s.sc with shadow := some { x with next := i + 1, requeue := 0, count := 0 } } else s
  | none => s

/-- A segment is abandoned (R71): offered again up to three times, then given up. -/
def State.segmentAbandoned (s : State) : State :=
  match s.sc.shadow with
  | some x =>
    s.setSc { s.sc with
      shadow := some (if x.requeue < 3 then { x with requeue := x.requeue + 1, count := 0 }
                      else { x with givenUp := true, count := 0 }) }
  | none => s

/-- The own READY is abandoned (R68): queued again up to three times, then the attempt fails. -/
def State.readyAbandoned (s : State) : State :=
  if s.sc.station = .synced then
    let s1 := s.setSc { s.sc with readyRequeue := s.sc.readyRequeue + 1 }
    if s1.sc.readyRequeue ≤ 3 then s1.queueMembership .ready else s1.failedAttempt true
  else s

/-! ## Keep Permit (R144, R146) -/

/-- The resources held and then those waited on enter the surrender set (R144 step 5). -/
def State.surrenderAll (s : State) : State :=
  let s1 := allResources.foldl
    (fun s r => if s.holdsOwn r && !s.releasePending r then s.surrenderAdd r .hold else s) s
  allResources.foldl
    (fun s r => if s.waitsOwn r && !s.withdrawPending r then s.surrenderAdd r .wait else s) s1

/-- A CLAIM record that is QUEUED (R144 step 4). -/
def Request.isQueuedClaim (q : Request) : Bool :=
  q.state == .queued && (match q.kind with | .claim _ _ => true | .release | .withdraw => false)

/-- A lapse of the permit (R144): the state, the cancelled CLAIMs, the surrender set, the record, in that order. The
lines and the RENEWs follow from the state (R109, R148). -/
def State.permitLapse (s : State) (c : LapseCause) : State :=
  let s1 := s.setKp { permit := .lapsed c, timer := none }
  let s2 := (s1.cancelRequests Request.isQueuedClaim).surrenderAll
  s2.note (.permit (match c with | .early => .lapsedEarly | .late => .lapsedLate))

/-- Restoration (R146). -/
def State.permitRestore (s : State) : State :=
  (s.setKp { permit := .early, timer := some 0 }).note (.permit .restored)

/-! ## Lapse of a hold (R111) -/

/-- A self-lapse, in the order of R111; the line drops and the RENEW is withdrawn with the lapsed mark. -/
def State.lapseHold (s : State) (r : Resource) : State :=
  let s1 := s.updateHold r (fun h => { h with lapsed := true, running := false })
  let s2 := if s1.releasePending r then s1 else s1.surrenderAdd r .hold
  s2.note (.lost r .lapsed)

/-- Every record of the list that is not lapsed and stands at the threshold lapses, in the list's order (R111). -/
def State.lapseOverdue (s : State) : State :=
  s.tu.holds.foldl
    (fun s h => if s.sc.station == .member && !h.lapsed && decide (s.lapseMs ≤ h.elapsed) then s.lapseHold h.r else s) s

end Sys2Proof.Machine
end

