-- ==== Sys2Proof/Machine/Replica.lean ====
section
/-! DEFINITION. The Replica Engine: applying state frames (chapters 1 and 2), and the joiner's use of accepted frames
(sections 3.2 to 3.4). -/

namespace Sys2Proof.Machine

/-! ## The tables -/

def State.setEntry (s : State) (r : Resource) (e : Entry) : State :=
  s.setReplica { s.replica with entries := s.replica.entries.set r.val e }

def State.setRosterEntry (s : State) (v : Station) (e : RosterEntry) : State :=
  s.setReplica { s.replica with roster := s.replica.roster.set v.val e }

/-- The TSN advances by one, wrapping (R49). -/
def State.advanceTsn (s : State) : State := s.setReplica { s.replica with tsn := s.replica.tsn + 1 }

/-- The grants of a promotion are reported as made; this station's own produces GRANTED (R11, R28, R29). -/
def State.reportGrants (s : State) (r : Resource) (gs : List Grant) : State :=
  gs.foldl (fun s g =>
    let s1 := s.slotCreated r g.station g.gen
    if g.station = s.own then s1.note (.granted r g.mode) else s1) s

/-- Entry `r` becomes `e` and promotion runs in it (R10, R11). -/
def State.promoteEntry (s : State) (r : Resource) (e : Entry) : State :=
  (s.setEntry r e.promote.1).reportGrants r e.promote.2

/-! ## Table frames (sections 1.4 to 1.8) -/

/-- R12 to R15, with what the Keep Permit adds for an own CLAIM that waits (R145). -/
def State.claimRule (s : State) (v : Station) (r : Resource) (m : LeaseMode) (wait : Bool) : State × ReqOutcome :=
  let e := s.entry r
  let s1 := s.setEntry r (e.claim v m wait)
  match e.decideClaim v m wait with
  | .refusedHeld => (s, .refusedHeld)
  | .refusedWaiting => (s, .refusedWaiting)
  | .granted => (s1.slotCreated r v (e.gen + 1), .granted)
  | .waiting =>
    (if v = s.own ∧ s.kp.permit.isLapsed then s1.surrenderAdd r .wait else s1, .waiting (e.waiters.length + 1))
  | .refusedBusy => (s, .refusedBusy)
  | .refusedFull => (s, .refusedFull)

/-- R16; an own surrender RELEASE of a hold without the lapsed mark produces LOST(SURRENDERED) (R17). -/
def State.releaseRule (s : State) (own : Bool) (v : Station) (r : Resource) (tag : Tag) : State × ReqOutcome :=
  let e := s.entry r
  if e.holds v then
    let told := s.lapsedMark r
    let s1 := s.slotRemoved r v
    let s2 := if own ∧ tag = .surrender ∧ ¬ told then s1.note (.lost r .surrendered) else s1
    (s2.promoteEntry r (e.dropHolder v), .released)
  else (s, .notHolder)

/-- R20; an own surrender WITHDRAW of a wait produces WAIT_ENDED(SURRENDERED) (R21). -/
def State.withdrawRule (s : State) (own : Bool) (v : Station) (r : Resource) (tag : Tag) : State × ReqOutcome :=
  let e := s.entry r
  if e.waits v then
    let s1 := if own ∧ tag = .surrender then s.note (.waitEnded r) else s
    (s1.promoteEntry r (e.dropWaiter v), .withdrawn)
  else (s, .notWaiting)

/-- R18 and R19; for an own RENEW that is late the record is closed and LOST(EXPIRED) told if it was not yet. -/
def State.renewRule (s : State) (own : Bool) (v : Station) (r : Resource) : State :=
  let e := s.entry r
  if e.holds v then (s.setEntry r (e.renew v)).slotRenewed r v (e.gen + 1)
  else if own then
    match s.holdOf r with
    | some h =>
      let s1 := s.closeHold r
      if h.lapsed then s1 else s1.note (.lost r .expired)
    | none => s
  else s

/-- R22 and R23. -/
def State.expireRule (s : State) (r : Resource) (h : Station) (g : Word16) : State :=
  let e := s.entry r
  if e.holdsAt h g then
    let told := s.lapsedMark r
    let s1 := s.slotRemoved r h
    let s2 :=
      if h = s.own then
        let s3 := s1.surrenderRemove r
        if told then s3 else s3.note (.lost r .expired)
      else s1
    s2.promoteEntry r (e.dropHolder h)
  else s

/-- The outcome of an own CLAIM, RELEASE or WITHDRAW goes where its tag says (R8); a CLAIM of tag 31 finds no
surrender member (R201). -/
def State.deliver (s : State) (tag : Tag) (r : Resource) (isClaim : Bool) (o : ReqOutcome) : State :=
  match tag with
  | .host t => s.completeRequest t o
  | .surrender => if isClaim then s else s.surrenderRemove r

/-- The own RENEW of `r` was a stray: its record offers no further RENEW (R110). -/
def State.barRenewal (s : State) (r : Resource) : State := s.updateHold r (fun h => { h with renewal := .barred })

/-- An own verdict ends: as a stray its watch restarts from zero (R116, R119). -/
def State.ownVerdictEnds (s : State) (stray : Bool) (v : Verdict) : State :=
  let s1 := s.endVerdict v
  if stray then s1.restartWatchOf v else s1

/-! ## Roster frames (sections 2.3 to 2.7) -/

/-- The incarnation after a JOIN: 255 is followed by 1 (R37). -/
def nextIncarnation (i : Byte) : Byte := if i = 255 then 1 else i + 1

/-- Both parts of the pair in which `x` provides for `v` are cleared; on station `x` the duty ends (R40, R47). -/
def State.endPairing (s : State) (x v : Station) : State :=
  let s1 := s.setRosterEntry x { s.rosterOf x with providingFor := none }
  let s2 := s1.setRosterEntry v { s1.rosterOf v with provider := none }
  if x = s.own then s2.endDuty else s2

/-- The provider pairings of a removed station, cleared both ways (R47). -/
def State.clearPairings (s : State) (v : Station) : State :=
  let s1 := match (s.rosterOf v).providingFor with
    | some j => s.endPairing v j
    | none => s
  match (s1.rosterOf v).provider with
  | some x => s1.endPairing x v
  | none => s1

/-- The holder pass and the waiter pass of a removal (R25). -/
def State.removeFromTable (s : State) (v : Station) : State :=
  let s1 := allResources.foldl
    (fun s r => if (s.entry r).holds v then (s.slotRemoved r v).promoteEntry r ((s.entry r).dropHolder v) else s) s
  allResources.foldl
    (fun s r => if (s.entry r).waits v then s.promoteEntry r ((s.entry r).dropWaiter v) else s) s1

/-- This station's own removal drops every own-hold record and empties the surrender set (R46). -/
def State.dropOwnHolds (s : State) : State :=
  let s1 := s.withdrawAttempt (fun src => match src with | .renew _ | .surrender _ => true | _ => false)
  s1.setTu { s1.tu with holds := [], surrender := [] }

/-- The removal of a station (R46). -/
def State.removeStation (s : State) (v : Station) : State :=
  let s1 := (s.removeFromTable v).clearPairings v
  let s2 := s1.setRosterEntry v
    { state := .absent, inc := (s1.rosterOf v).inc, provider := none, providingFor := none }
  let s3 := s2.closePresence v
  if v = s3.own then s3.dropOwnHolds else s3

/-- A removal by LEAVE, EVICT or JOIN, with the MEMBERSHIP record of a station that was MEMBER (R48). -/
def State.removeAndTell (s : State) (live : Bool) (v : Station) (c : MembershipCause) : State :=
  let wasMember := (s.rosterOf v).state == .member
  let s1 := s.removeStation v
  if live ∧ wasMember ∧ v ≠ s.own then s1.note (.membership v c) else s1

/-- The provider for a joiner: the lowest MEMBER that provides for nobody and is not the joiner (R38). -/
def State.freeProvider (s : State) (j : Station) : Option Station :=
  allStations.find? (fun x => (s.rosterOf x).state == .member && (s.rosterOf x).providingFor == none && x != j)

/-- A JOIN (R35 to R38). The second part is the duty that starts on this station. -/
def State.joinRule (s : State) (live : Bool) (v : Station) (digest : Word16) (attempt : Fin 4) :
    State × Option (Station × Fin 4) :=
  if digest = s.digest then
    let s1 := if (s.rosterOf v).state = .absent then s else s.removeAndTell live v .left
    let inc := nextIncarnation (s1.rosterOf v).inc
    let s2 := s1.setRosterEntry v { state := .joining, inc := inc, provider := none, providingFor := none }
    let s3 := if v = s2.own then s2 else s2.openPresence v inc
    match s3.freeProvider v with
    | some x =>
      let s4 := s3.setRosterEntry x { s3.rosterOf x with providingFor := some v }
      let s5 := s4.setRosterEntry v { s4.rosterOf v with provider := some x }
      (s5, if live ∧ x = s.own then some (v, attempt) else none)
    | none => (s3, none)
  else (if live ∧ s.lowestMember = some s.own then s.queueRefusal v attempt else s, none)

/-- The sender's roster entry has the state asked for and the frame's incarnation (R33). -/
def State.listedAs (s : State) (f : Frame) (ok : RosterState → Bool) : Bool :=
  ok (s.rosterOf f.sender).state && f.inc == (s.rosterOf f.sender).inc

/-- R40. -/
def State.readyRule (s : State) (live : Bool) (v : Station) : State :=
  let s1 := match (s.rosterOf v).provider with
    | some x => s.endPairing x v
    | none => s
  let s2 := s1.setRosterEntry v { s1.rosterOf v with state := .member, provider := none }
  if live ∧ v ≠ s.own then s2.note (.membership v .joined) else s2

/-! ## One application (R6, R34) -/

/-- What an application reports to the Station Controller after it is complete (R39, R41, R43, R45, R52). -/
structure Report where
  diverged : Bool
  evicted : Bool
  ready : Option Bool
  leave : Option Bool
  provide : Option (Station × Fin 4)
  deriving DecidableEq, Repr

def Report.nothing : Report := { diverged := false, evicted := false, ready := none, leave := none, provide := none }

/-- The base-TSN comparison (R51): the record after it, and whether divergence is reported. -/
def State.compareTsn (s : State) (f : Frame) : State × Bool :=
  if f.baseTsn = s.replica.tsn then (s.setReplica { s.replica with mismatch := none }, false)
  else
    (s.setReplica { s.replica with mismatch := some f.sender },
     match s.replica.mismatch with
     | some v => v != f.sender
     | none => false)

/-- The rule of the kind, the advance of the TSN, and the outcome of an own frame (R6, R34). -/
def State.applyRule (s : State) (live own : Bool) (f : Frame) : State × Report :=
  let v := f.sender
  let valid := s.validActor f
  match f.body with
  | .claim r m w tag =>
    let x := if valid then s.claimRule v r m w else (s, .stray)
    let s1 := x.1.advanceTsn
    (if own then s1.deliver tag r true x.2 else s1, Report.nothing)
  | .release r tag =>
    let x := if valid then s.releaseRule own v r tag else (s, .stray)
    let s1 := x.1.advanceTsn
    (if own then s1.deliver tag r false x.2 else s1, Report.nothing)
  | .withdraw r tag =>
    let x := if valid then s.withdrawRule own v r tag else (s, .stray)
    let s1 := x.1.advanceTsn
    (if own then s1.deliver tag r false x.2 else s1, Report.nothing)
  | .renew r =>
    let s1 := (if valid then s.renewRule own v r else s).advanceTsn
    (if own ∧ ¬ valid then s1.barRenewal r else s1, Report.nothing)
  | .expire r h g =>
    let s1 := (if valid then s.expireRule r h g else s).advanceTsn
    (if own then s1.ownVerdictEnds (!valid) (.expire r h g) else s1, Report.nothing)
  | .join digest attempt =>
    let x := s.joinRule live v digest attempt
    (x.1.advanceTsn, { Report.nothing with provide := x.2 })
  | .ready =>
    let ok := s.listedAs f (fun st => st == .joining)
    let s1 := (if ok then s.readyRule live v else s).advanceTsn
    (s1, { Report.nothing with ready := if own then some ok else none })
  | .leave =>
    let ok := s.listedAs f (fun st => st != .absent)
    let s1 := (if ok then s.removeAndTell live v .left else s).advanceTsn
    (s1, { Report.nothing with leave := if own then some ok else none })
  | .evict target inc =>
    let hit := valid && (s.rosterOf target).state != .absent && (s.rosterOf target).inc == inc
    let s1 := (if hit then s.removeAndTell live target .evicted else s).advanceTsn
    (if own then s1.ownVerdictEnds (!valid) (.evict target inc) else s1,
     { Report.nothing with evicted := hit && target == s.own })
  | .presence | .joinRefuse .. | .snapshot .. => (s, Report.nothing)

/-- One application of an accepted state frame. Live frames of another station in member role are compared first
(R51); the own incarnation follows the own roster entry while the replica is live (R54). -/
def State.applyFrame (s : State) (live own : Bool) (f : Frame) : State × Report :=
  let compared := live && !own && f.role == .member
  let c := if compared then s.compareTsn f else (s, false)
  let x := c.1.applyRule live own f
  let s1 := if live then x.1.setSc { x.1.sc with ownInc := (x.1.rosterOf x.1.own).inc } else x.1
  (s1, { x.2 with diverged := c.2 })

/-! ## The Station Controller's use of the reports -/

/-- Divergence and own eviction, in the order the spec leaves open when one application makes both (log 16). -/
def State.takeRemovalReports (s : State) (rep : Report) : State :=
  match rep.diverged, rep.evicted with
  | false, false => s
  | true, false => s.divergence
  | false, true => s.ownEviction
  | true, true =>
    let s1 := s.setFreeIndex (s.freeIndex + 1)
    if Config.evictionFirst s.freeIndex then s1.ownEviction.divergence else s1.divergence.ownEviction

/-- The own READY's report (R68): acted on in SYNCED alone. -/
def State.takeReadyReport (s : State) (applied : Bool) : State :=
  if s.sc.station = .synced then
    if applied then s.enterMember.note (.station .member .joined) else s.failedAttempt true
  else s

/-- The reports of one application, after it is complete (R39, R41, R43, R45, R52). -/
def State.takeReport (s : State) (rep : Report) : State :=
  let s1 := match rep.provide with
    | some (j, a) => s.takeShadow j a
    | none => s
  let s2 := match rep.ready with
    | some ok => s1.takeReadyReport ok
    | none => s1
  let s3 := match rep.leave with
    | some _ => s2.leavingEnd
    | none => s2
  s3.takeRemovalReports rep

/-- A state frame accepted while the replica is live: applied, then reported (R6). -/
def State.applyLive (s : State) (own : Bool) (f : Frame) : State :=
  let x := s.applyFrame true own f
  x.1.takeReport x.2

/-! ## Loading a snapshot (R67, R53) -/

/-- A vector of the first `n` elements of a list, filled up with a default. -/
def vectorFrom {α : Type} (n : Nat) (d : α) (xs : List α) : Vector α n :=
  ⟨((xs ++ List.replicate n d).take n).toArray, by simp⟩

/-- The roster of a snapshot: every provider is found from the pairs (R202). -/
def loadedRoster (records : Vector RosterRec 32) : Vector RosterEntry 32 :=
  vectorFrom 32 RosterEntry.cleared (allStations.map (fun v =>
    { state := records[v].state, inc := records[v].inc, providingFor := records[v].providingFor,
      provider := allStations.find? (fun x => records[x].providingFor == some v) }))

/-- The Timer Unit at a load: a watch from zero on every foreign slot and on every other listed station (R125). -/
def State.openLoadedWatches (s : State) : State :=
  let slots := allResources.flatMap (fun r => (s.entry r).holders.map (fun h => (r, h)))
  let s1 := slots.foldl
    (fun s x => if x.2.station = s.own then s else s.openExpiry x.1 x.2.station x.2.gen) s
  allStations.foldl
    (fun s v => if v ≠ s.own ∧ (s.rosterOf v).state ≠ .absent then s.openPresence v (s.rosterOf v).inc else s) s1

/-- The staged snapshot replaces the replica (R67). -/
def State.loadStaged (s : State) (x : Staged) : State :=
  let roster := loadedRoster x.roster
  let s1 := s.setReplica
    { entries := vectorFrom 64 Entry.cleared x.entries, roster := roster, tsn := x.tsn, mismatch := none }
  let s2 := s1.setSc { s1.sc with staged := none, stallTimer := none, ownInc := roster[s1.own].inc }
  s2.openLoadedWatches

/-- Replay of catch-up records, oldest first; it stops where this station's own entry is removed (R53, R67). -/
def State.replay : List Frame → State → State × Bool
  | [], s => (s, true)
  | f :: rest, s =>
    let s1 := (s.applyFrame false false f).1
    if (s1.rosterOf s1.own).state = .absent then (s1, false) else State.replay rest s1

/-- Load and replay in one operation (R67). -/
def State.loadAndReplay (s : State) (x : Staged) : State :=
  let y := State.replay s.sc.catchUp (s.loadStaged x)
  let s1 := y.1.setSc { y.1.sc with catchUp := [] }
  if y.2 then (s1.setSc { s1.sc with station := .synced }).queueMembership .ready
  else s1.failedAttempt true

/-- A SNAPSHOT frame for this station and attempt (R66). -/
def State.takeSegment (s : State) (sender : Station) (tsn : Word16) (p : Payload) : State :=
  match s.sc.station, s.sc.staged, p with
  | .joinWait, _, .roster records =>
    if records[s.own].state = .joining then
      s.setSc { s.sc with
        station := .snapshot, ownInc := records[s.own].inc, joinTimer := none, stallTimer := some 0,
        staged := some { sender := sender, tsn := tsn, roster := records, entries := [], last := 0 } }
    else s.failedAttempt false
  | .joinWait, _, .entries _ _ => s.failedAttempt false
  | .snapshot, some x, .entries i four =>
    if i.val + 1 = x.last + 1 ∧ sender = x.sender ∧ tsn = x.tsn then
      let y := { x with entries := x.entries ++ four.toList, last := i.val + 1 }
      let s1 := s.setSc { s.sc with staged := some y, stallTimer := some 0 }
      if i.val + 1 = 16 then s1.loadAndReplay y else s1
    else s.failedAttempt false
  | .snapshot, _, _ => s.failedAttempt false
  | _, _, _ => s

/-! ## The joiner's use of accepted frames (R59, R60, R63, R65, R66) -/

/-- The founding-wait facts (R60), in JOIN_WAIT alone. -/
def State.foundingFacts (s : State) (f : Frame) : State :=
  if s.sc.station = .joinWait then
    match f.role with
    | .member => s.setSc { s.sc with memberHeard := true }
    | .joiner => if f.sender < s.own then s.setSc { s.sc with lowerHeard := true } else s
  else s

/-- A state frame is recorded; one accepted while the queue holds 24 fails the attempt (R65). -/
def State.recordCatchUp (s : State) (f : Frame) : State :=
  if s.sc.catchUp.length < Config.catchUpSize then s.setSc { s.sc with catchUp := s.sc.catchUp ++ [f] }
  else s.failedAttempt false

/-- An accepted frame in JOIN_WAIT after own JOIN accepted, or in SNAPSHOT. -/
def State.joinerTakes (s : State) (f : Frame) : State :=
  let s1 := s.foundingFacts f
  match f.body with
  | .snapshot target attempt tsn p =>
    if target = s1.own ∧ attempt.val = s1.sc.attemptNo then s1.takeSegment f.sender tsn p else s1
  | .joinRefuse target attempt =>
    if target = s1.own ∧ attempt.val = s1.sc.attemptNo then s1.enterFaulted .refusedConfig else s1
  | .presence => s1
  | .claim .. | .release .. | .renew _ | .withdraw .. | .expire .. | .join .. | .ready | .leave | .evict .. =>
    s1.recordCatchUp f

/-- An accepted frame goes where the station state sends it (R55, R75, R97). -/
def State.handOn (s : State) (own : Bool) (f : Frame) : State :=
  match s.sc.station with
  | .synced | .member | .leaving _ .live => if f.body.isState then s.applyLive own f else s
  | .leaving _ .cleared =>
    match f.body with
    | .leave => if own then s.leavingEnd else s
    | .claim .. | .release .. | .renew _ | .withdraw .. | .expire .. | .join .. | .ready | .evict .. | .presence
    | .joinRefuse .. | .snapshot .. => s
  | .joinWait =>
    match own, f.body with
    | true, .join .. => s.ownJoinAccepted
    | _, _ => if s.sc.joinAccepted then s.joinerTakes f else s
  | .snapshot =>
    match own, f.body with
    | true, .join .. => s
    | _, _ => s.joinerTakes f
  | .offline | .faulted _ => s

end Sys2Proof.Machine
end

