-- ==== Sys2Proof/Machine/Line.lean ====
section
/-! DEFINITION. The Line Unit's attempts: choice, checks, failure, abandonment, acceptance (sections 4.3 to 4.6). -/

namespace Sys2Proof.Machine

/-! ## Attempt counts (R92) -/

/-- The attempt count of a candidate, kept with its source. Control frames of one kind each carry their own: the one in
an attempt is the first of its kind in the queue (R56, R101). -/
def State.setCount (s : State) (src : Source) (n : Nat) : State :=
  match src with
  | .control k =>
    s.setSc { s.sc with control := updateFirst (fun c => c.kind == k) (fun c => { c with count := n }) s.sc.control }
  | .renew r =>
    s.updateHold r (fun h => match h.renewal with
      | .candidate _ => { h with renewal := .candidate n }
      | .idle | .barred => h)
  | .verdict v =>
    s.setTu { s.tu with
      verdicts := s.tu.verdicts.map (fun i => if i.verdict = v then { i with count := n } else i) }
  | .segment _ =>
    match s.sc.shadow with
    | some x => s.setSc { s.sc with shadow := some { x with count := n } }
    | none => s
  | .surrender r =>
    s.setTu { s.tu with surrender := s.tu.surrender.map (fun m => if m.r = r then { m with count := n } else m) }
  | .host t => s.setRequests (s.requests.map (fun q => if q.tag = t then { q with count := n } else q))
  | .presence => s.setTu { s.tu with presenceOffer := s.tu.presenceOffer.map (fun _ => n) }

/-- A frame is abandoned: it leaves the Line Unit and its source is told NOT_SENT (R98). A RENEW, a surrender frame
and a PRESENCE are offered again at once with count 0 (R110, R117, R123). -/
def State.abandon (s : State) (src : Source) : State :=
  match src with
  | .control .join =>
    let s1 := s.removeControl .join
    if s1.sc.station = .joinWait then s1.failedAttempt false else s1
  | .control .ready => (s.removeControl .ready).readyAbandoned
  | .control .leave => (s.removeControl .leave).leavingEnd
  | .control (.joinRefuse v a) => s.removeControl (.joinRefuse v a)
  | .renew r => s.updateHold r (fun h => match h.renewal with
      | .candidate _ => { h with renewal := .idle }
      | .idle | .barred => h)
  | .verdict v => (s.endVerdict v).requeueVerdict v
  | .segment _ => s.segmentAbandoned
  | .surrender r => s.setCount (.surrender r) 0
  | .host t =>
    match s.requests.find? (fun q => q.tag == t) with
    | some q =>
      let s1 := s.completeRequest t .notSent
      match q.kind with
      | .claim _ _ => s1
      | .release => if s1.kp.permit.isLapsed ∧ s1.holdsOwn q.r then s1.surrenderAdd q.r .hold else s1
      | .withdraw => if s1.kp.permit.isLapsed ∧ s1.waitsOwn q.r then s1.surrenderAdd q.r .wait else s1
    | none => s
  | .presence => s.setCount .presence 0

/-- The retry limit (R92, R161). -/
def State.retryLimit (s : State) : Nat := s.configField ConfigRecord.retryLimit

/-- The backoff after a failed attempt with count `n`, in bit times (R93). -/
def backoffBits (own : Station) (n : Nat) : Nat := 64 * (own.val % 2 ^ min n 5)

/-- The current attempt fails (R92): a withdrawn frame leaves without backoff; at the retry limit the frame is
abandoned without backoff; below it the transmitter backs off. After a collision the jam comes first. -/
def State.attemptFailed (s : State) (jam : Bool) : State :=
  match s.lu.current with
  | some a =>
    let s1 := s.setLu { s.lu with current := none, backoff := none, tx := if jam then .jam else .idle }
    if a.withdrawn then s1
    else if s.retryLimit ≤ a.count + 1 then s1.abandon a.source
    else
      let s2 := s1.setCount a.source (a.count + 1)
      s2.setLu { s2.lu with
        backoff := some (backoffBits s.own (a.count + 1)), tx := if jam then .jam else .backoff }
  | none => s

/-! ## The Transmit Selector (R102 to R104) -/

/-- The check of a chosen frame against the state that owns its subject (R104, R169). -/
def State.attemptCheck (s : State) (src : Source) : Bool :=
  match src with
  | .control _ | .segment _ => true
  | .renew r => s.tu.holds.any (fun h => h.r == r && s.renewAllowed h)
  | .verdict (.expire r h g) => s.mayJudge && (s.entry r).holdsAt h g
  | .verdict (.evict v i) => s.mayJudge && (s.rosterOf v).state != .absent && (s.rosterOf v).inc == i
  | .surrender r =>
    match s.surrenderMark r with
    | some .hold => s.holdsOwn r
    | some .wait => s.waitsOwn r
    | none => false
  | .host t =>
    match s.requests.find? (fun q => q.tag == t) with
    | some q =>
      match q.kind, q.state with
      | .claim _ _, _ => true
      | .release, .queued => s.holdsOwn q.r
      | .withdraw, .queued => s.waitsOwn q.r
      | .release, .onAir | .withdraw, .onAir => true
    | none => false
  | .presence => s.presenceCondition

/-- What a failed check does to the frame (R104, R169). -/
def State.withdrawChecked (s : State) (src : Source) : State :=
  match src with
  | .control _ | .segment _ => s
  | .renew r => s.updateHold r (fun h => { h with renewal := .idle })
  | .verdict v => s.endVerdict v
  | .surrender r => s.surrenderRemove r
  | .host t =>
    match s.requests.find? (fun q => q.tag == t) with
    | some q => s.completeRequest t (match q.kind with | .withdraw => .notWaiting | .release | .claim _ _ => .notHolder)
    | none => s
  | .presence => s.setTu { s.tu with presenceOffer := none }

/-- The choice: the first candidate whose check holds, each that fails being withdrawn first (R102). `fuel` bounds the
candidates looked at. -/
def State.choose : Nat → State → State × Option Candidate
  | 0, s => (s, none)
  | fuel + 1, s =>
    match s.candidates with
    | c :: _ => if s.attemptCheck c.source then (s, some c) else State.choose fuel (s.withdrawChecked c.source)
    | [] => (s, none)

/-- The role of this station's frames (R55). -/
def State.ownRole (s : State) : Role :=
  match s.sc.station with
  | .member => .member
  | .leaving _ _ => if (s.rosterOf s.own).state = .member then .member else .joiner
  | .offline | .joinWait | .snapshot | .synced | .faulted _ => .joiner

/-- The frame of a candidate, its header written from current state (R103). -/
def State.frameOf (s : State) (c : Candidate) : Frame :=
  { role := s.ownRole, sender := s.own, inc := s.sc.ownInc, baseTsn := s.replica.tsn, body := c.body }

/-- A host record whose frame is sent becomes ON_AIR (R168). -/
def State.markOnAir (s : State) (src : Source) : State :=
  match src with
  | .host t => s.setRequests (s.requests.map (fun q => if q.tag = t then { q with state := .onAir } else q))
  | .control _ | .renew _ | .verdict _ | .segment _ | .surrender _ | .presence => s

/-- The first preamble bit is driven, and this station's receiver follows the frame (R88, R94). -/
def State.beginAttempt (s : State) (c : Candidate) : State :=
  let f := s.frameOf c
  let s1 := s.markOnAir c.source
  s1.setLu { s1.lu.endReception with
    tx := .send, backoff := none, rx := .receive, rxFrame := some f
    current := some { frame := f, source := c.source, count := c.count, withdrawn := false } }

/-- The transmitter may start: no frame has begun on the line (R86, R88), and it stands in DEFER, or its wait of zero
slots has begun and so has run out (R93, log 32). -/
def State.mayStart (s : State) : Bool :=
  s.listening && s.lu.rx == .idle
  && (s.lu.tx == .defer || (s.lu.tx == .backoff && s.lu.backoff == some 0 && !s.lu.backoffHeld))

/-- An attempt start (R88). -/
def State.startAttempt (s : State) : State :=
  let x := State.choose (s.candidates.length + s.requests.length + 1) s
  match x.2 with
  | some c => x.1.beginAttempt c
  | none => x.1.setLu { x.1.lu with tx := .idle, backoff := none }

/-! ## Acceptance (R97, R98) -/

/-- An accepted own frame leaves its source, unless withdrawn meanwhile; what ends at application is left to it. -/
def State.ownFrameLeaves (s : State) (a : Attempt) : State :=
  if a.withdrawn then s
  else match a.source with
    | .control k => s.removeControl k
    | .segment i => s.segmentAccepted i
    | .presence => s.setTu { s.tu with presenceOffer := none }
    | .renew _ | .verdict _ | .surrender _ | .host _ => s

/-- A running presence timer restarts at an own frame accepted (R117). -/
def State.restartPresence (s : State) : State :=
  s.setTu { s.tu with presenceTimer := s.tu.presenceTimer.map (fun _ => 0) }

/-- This station's current attempt is accepted (R91, R97, R98). -/
def State.acceptOwn (s : State) (a : Attempt) : State :=
  let s1 := s.setLu { s.lu.endReception with vetoCount := 0, tx := .idle, current := none, backoff := none }
  ((s1.ownFrameLeaves a).restartPresence).handOn true a.frame

/-- A frame read from the line is accepted; with this station's number it shows a duplicate (R97, R100).
That the veto count stays as it was at a duplicate is the model's choice (log 39). -/
def State.acceptForeign (s : State) (f : Frame) : State :=
  let s1 := s.setLu s.lu.endReception
  if f.sender = s.own then s1.enterFaulted .duplicate
  else
    let s2 := s1.setLu { s1.lu with vetoCount := 0 }
    (s2.hearStation f.sender f.inc).handOn false f

/-! ## The timebase (R105) -/

/-- The reception in progress fails on account of the timebase, an own frame's included; found in the veto slot, it drives
DOMINANT for the rest of it (R105). The backoff of an attempt cut off begins when that reception has ended (R93). -/
def LineUnit.failReception (l : LineUnit) : LineUnit :=
  if l.sending || l.rx != .idle then
    { l with
      rx := if l.rx = .idle then .receive else l.rx, rxFailed := true, rxTimebase := true
      backoffHeld := l.sending || l.backoffHeld }
  else l

/-- REFERENCE is left while the Line Unit works (R105): an own attempt is cut off as failed, and the frame being
received, own or foreign, is to be vetoed without counting. In JAM the attempt has failed already (log 13). -/
def State.cutOff (s : State) : State :=
  let s1 := s.setLu { s.lu.failReception with clock := .internal }
  match s.lu.tx with
  | .send | .veto => s1.attemptFailed false
  | .jam => s1.setLu { s1.lu with tx := match s.lu.backoff with | some _ => .backoff | none => .idle }
  | .idle | .defer | .backoff => s1

end Sys2Proof.Machine
end

