-- ==== Sys2Proof/Machine/HostCommands.lean ====
section
/-! DEFINITION. The meanings of the host commands and of the serial port's events (chapter 8, R58, R73, R135, R142,
R182). A host command is taken only while no reset runs and the port has seen CS# high (R154). -/

namespace Sys2Proof.Machine

/-- A step of the part. -/
abbrev Answer := Host.Outcome State Fault Refusal

/-- A transaction can begin: no reset runs, CS# has been seen high, and the last transaction is not a RESET whose CS#
rise is still to come (R154, R159, log 9). -/
def State.portOpen (s : State) : Bool :=
  s.power.phase == .running && (s.port == .ready || s.port == .noteOut)

/-- The answer of a command: its status byte and its response bytes (R153). -/
def State.answer (s : State) (st : Status) (bytes : List Byte) : State :=
  (s.setResponse (st.byte :: bytes)).setPort .ready

/-- A host command is taken at one point (R155); while no transaction can begin it is not taken (R154). -/
def takeCommand (s : State) (taken : State → State) : Answer := .next (if s.portOpen then taken s else s)

/-! ## Reading commands -/

/-- READ_STATUS (R158). -/
def execReadStatus (s : State) : Answer := takeCommand s (fun s => s.answer .ok s.statusBytes)

/-- READ_CAUSE (R160). -/
def execReadCause (s : State) : Answer := takeCommand s (fun s => s.answer .ok [s.cause.byte])

/-- CLEAR_CAUSE (R160). -/
def execClearCause (s : State) : Answer :=
  takeCommand s (fun s => (s.setCause { power := false, pin := false, command := false }).answer .ok [])

/-- READ_CONFIG (R162). -/
def execReadConfig (s : State) : Answer :=
  takeCommand s (fun s => match s.config with
    | some c => s.answer .ok (c.bytes ++ wordBytes c.digest)
    | none => s.answer .noConfig (List.replicate 19 0x00))

/-- NOTE_COUNT (R183). -/
def execNoteCount (s : State) : Answer :=
  takeCommand s (fun s => s.answer .ok [byteOf s.nu.queue.length, byteOf s.nu.dropped])

/-- A query's response with its length byte (R153, R156). -/
def State.answerQuery (s : State) (bytes : List Byte) : State := s.answer .ok (byteOf bytes.length :: bytes)

/-- QUERY_ENTRY (R174). -/
def execQueryEntry (resource : Byte) (s : State) : Answer :=
  takeCommand s (fun s => match resourceOf resource with
    | some r => s.answerQuery (s.entryBytes r)
    | none => s.answer .refusedArg [0x00])

/-- QUERY_ROSTER (R175). -/
def execQueryRoster (station : Byte) (s : State) : Answer :=
  takeCommand s (fun s => match stationOf station with
    | some v => s.answerQuery (s.rosterBytes v)
    | none => s.answer .refusedArg [0x00])

/-- QUERY_REQUEST (R176). -/
def execQueryRequest (tag : Byte) (s : State) : Answer :=
  takeCommand s (fun s =>
    if tag.toNat < 16 then
      match s.requests.find? (fun q => q.tag.val == tag.toNat) with
      | some q => s.answerQuery q.bytes
      | none => s.answer .empty [0x00]
    else s.answer .refusedArg [0x00])

/-! ## Configuration, START and STOP -/

/-- WRITE_CONFIG (R161): range checks, then the station state; an accepted record replaces the whole record with its
digest and is copied into the grant maps. A transaction with another number of bytes is not this command (log 23). -/
def execWriteConfig (record : List Byte) (s : State) : Answer :=
  takeCommand s (fun s =>
    match configRecordOf record with
    | some c =>
      if s.sc.station = .offline then
        ((s.setConfig (some c)).setGou { s.gou with maps := c.maps })
          |> (fun s1 => s1.setNu { s1.nu with idle := match s1.nu.idle with
              | .running n => if c.irqIdle ≤ n then .reached else .running n
              | .stopped => .stopped
              | .reached => .reached })
          |> State.settle |> (fun s1 => s1.answer .ok [])
      else s.answer .refusedState []
    | none => s.answer .refusedArg [])

/-- START (R58). -/
def execStart (s : State) : Answer :=
  takeCommand s (fun s =>
    if s.sc.station ≠ .offline then s.answer .refusedState []
    else if s.config = none then s.answer .noConfig []
    else if s.tm.timebase ≠ .reference then s.answer .noTimebase []
    else s.joinStart.settle.answer .ok [])

/-- The station goes OFFLINE by STOP: what is still queued or timed is emptied (R73, R106, R125). -/
def State.stopOffline (s : State) : State :=
  let s1 := s.withdrawMembership.stopPresence
  let s2 := s1.setSc { s1.sc.dropJoin with station := .offline }
  s2.lineOff.note (.station .offline .stop)

/-- The effect of STOP where it is taken (R73). -/
def State.stop (s : State) : Option State :=
  match s.sc.station with
  | .offline => none
  | .joinWait =>
    if s.sc.joinAccepted then
      some ((s.enterLeaving .stopping .cleared).note (.station (.leaving .stopping .cleared) .stop))
    else some s.stopOffline
  | .snapshot => some ((s.enterLeaving .stopping .cleared).note (.station (.leaving .stopping .cleared) .stop))
  | .synced | .member => some ((s.enterLeaving .stopping .live).note (.station (.leaving .stopping .live) .stop))
  | .leaving .rejoin replica =>
    some ((s.setSc { s.sc with station := .leaving .stopping replica }).note
      (.station (.leaving .stopping replica) .stop))
  | .leaving .stopping _ => none
  | .faulted _ => some s.stopOffline

/-- STOP (R73). -/
def execStop (s : State) : Answer :=
  takeCommand s (fun s => match s.stop with
    | some s1 => s1.settle.answer .ok []
    | none => s.answer .refusedState [])

/-! ## Requests (R164 to R167) -/

/-- A request refused: the tag byte is FFh (R156). -/
def State.refuseRequest (s : State) (st : Status) : State := s.answer st [0xFF]

/-- The lowest tag that no record holds (R164). -/
def State.freeTag (s : State) : Fin 16 :=
  ((List.finRange 16).find? (fun t => !s.requests.any (fun q => q.tag == t))).getD 0

/-- A request accepted: a QUEUED record at the tail, answered OK with its tag (R164 to R167). -/
def State.acceptRequest (s : State) (kind : RequestKind) (r : Resource) : State :=
  let t := s.freeTag
  let s1 := s.setRequests (s.requests ++ [{ tag := t, kind := kind, r := r, state := .queued, count := 0 }])
  s1.settle.answer .ok [byteOf t.val]

/-- The checks that the three requests share after the range check, in order: state, room, busy (R165 to R167). -/
def State.requestRefusal (s : State) (r : Resource) : Option Status :=
  if s.sc.station ≠ .member then some .refusedState
  else if Config.requestQueueSize ≤ s.requests.length then some .queueFull
  else if (s.requestFor r).isSome ∨ s.surrendering r then some .resourceBusy
  else none

/-- CLAIM (R165). -/
def execClaim (resource mode wait : Byte) (s : State) : Answer :=
  takeCommand s (fun s =>
    match resourceOf resource, modeOf mode, waitOf wait with
    | some r, some m, some w =>
      match s.requestRefusal r with
      | some st => s.refuseRequest st
      | none =>
        if s.holdsOwn r then s.refuseRequest .held
        else if s.waitsOwn r then s.refuseRequest .waitingAlready
        else if s.kp.permit.isLapsed then s.refuseRequest .permitLapsed
        else s.acceptRequest (.claim m w) r
    | _, _, _ => s.refuseRequest .refusedArg)

/-- RELEASE (R166). The lines drop and the RENEW is withdrawn with the pending record (R109, R148). -/
def execRelease (resource : Byte) (s : State) : Answer :=
  takeCommand s (fun s =>
    match resourceOf resource with
    | some r =>
      match s.requestRefusal r with
      | some st => s.refuseRequest st
      | none => if s.holdsOwn r then s.acceptRequest .release r else s.refuseRequest .notHolder
    | none => s.refuseRequest .refusedArg)

/-- WITHDRAW (R167). -/
def execWithdraw (resource : Byte) (s : State) : Answer :=
  takeCommand s (fun s =>
    match resourceOf resource with
    | some r =>
      match s.requestRefusal r with
      | some st => s.refuseRequest st
      | none => if s.waitsOwn r then s.acceptRequest .withdraw r else s.refuseRequest .notWaiting
    | none => s.refuseRequest .refusedArg)

/-! ## KEEP, RESTORE_TIMEBASE, RESET -/

/-- KEEP (R142). -/
def execKeep (s : State) : Answer :=
  takeCommand s (fun s =>
    if s.config = none then s.answer .noConfig []
    else if s.configField ConfigRecord.keepPeriod = 0 then s.answer .noPermit []
    else if s.sc.station ≠ .member then s.answer .refusedState []
    else match s.kp.permit with
      | .none => s.answer .refusedState []
      | .early => (s.permitLapse .early).settle.answer .permitLapsed []
      | .window => (s.setKp { permit := .early, timer := some 0 }).settle.answer .ok []
      | .lapsed _ => s.permitRestore.settle.answer .ok [])

/-- RESTORE_TIMEBASE (R135, R126). -/
def execRestoreTimebase (s : State) : Answer :=
  takeCommand s (fun s => match s.tm.timebase with
    | .startup | .reference => s.answer .refusedState []
    | .degraded =>
      if s.tm.recovered then
        let s1 := s.setTm { timebase := .reference, goodCount := 0, recovered := false }
        (s1.note (.timebase .restored)).offerOverdue.settle.answer .ok []
      else s.answer .noTimebase [])

/-- RESET (R159): answered OK; the reset is made when CS# rises. -/
def execReset (s : State) : Answer := takeCommand s (fun s => (s.answer .ok []).setPort .resetTaken)

/-- A command byte that names no command (R154). -/
def execUnknownCommand (_code : Byte) (s : State) : Answer := takeCommand s (fun s => s.answer .refusedArg [])

/-- CS# rises before the last argument byte is complete (R153): no effect, no status. -/
def execTransactionAborted (s : State) : Answer := takeCommand s (fun s => (s.setResponse []).setPort .ready)

/-! ## Reading notes (R182, R185) -/

/-- An OVERFLOW record is placed if records have been dropped and there is room (R182). -/
def State.placeOverflow (s : State) : State :=
  if s.nu.dropped ≠ 0 ∧ s.nu.queue.length < Config.noteQueueSize then
    let n := s.nu.arrive (.overflow s.nu.dropped)
    (s.setNu { n with dropped := 0 }).settle
  else s

/-- READ_NOTE (R182): the head record goes out and stays in the queue until its last byte is clocked out. -/
def execReadNote (s : State) : Answer :=
  takeCommand s (fun s =>
    let s1 := s.placeOverflow
    match s1.nu.queue with
    | x :: _ => (s1.answer .ok x.bytes).setPort .noteOut
    | [] => s1.answer .empty (List.replicate 4 0x00))

/-- The last byte of a READ_NOTE response is clocked out (R182, R185). -/
def execNoteRecordRemoved (s : State) : Answer :=
  .next (match s.power.phase, s.port, s.nu.queue with
    | .running, .noteOut, _ :: rest =>
      let s1 := s.setNu { s.nu with queue := rest, idle := if rest.isEmpty then .stopped else .running 0 }
      s1.settle.setPort .ready
    | _, _, _ => s)

/-- CS# is seen high after a reset (R154). -/
def execCsHighSeen (s : State) : Answer :=
  .next (if s.power.phase = .running ∧ s.port = .waitHigh then s.setPort .ready else s)

end Sys2Proof.Machine
end

