-- ==== Sys2Proof/Machine/ClockEvents.lean ====
section
/-! DEFINITION. The meanings of the measurement window and of the Line Unit's return to REFCLK (chapter 6, R105). -/

namespace Sys2Proof.Machine

/-- A window is good when its edge count lies within 2 % of 16000 (R129). -/
def goodWindow (edges : Nat) : Bool := decide (Config.goodWindowMin ≤ edges) && decide (edges ≤ Config.goodWindowMax)

/-- A reception is in progress of which no row has told: the receiver stands in RECEIVE (R94, log 20). -/
def State.receptionBegun (s : State) (receiving : Bool) : State :=
  s.setLu { s.lu with rx := if receiving && s.listening && s.lu.rx == .idle then .receive else s.lu.rx }

/-- The change from REFERENCE to DEGRADED (R132): the state and its record first, then the Line Unit, then the Timer
Unit, whose lapses follow in ascending resource number. -/
def State.degrade (s : State) (receiving : Bool) : State :=
  let s1 := (s.receptionBegun receiving).setTm { timebase := .degraded, goodCount := 0, recovered := false }
  (((s1.note (.timebase .failed)).cutOff).withdrawVerdicts).lapseOverdue

/-- Qualification (R131): every block counts REFCLK milliseconds, the idle Line Unit included (R130). -/
def State.qualify (s : State) : State :=
  let s1 := s.setTm { timebase := .reference, goodCount := 0, recovered := false }
  (s1.setLu { s1.lu with clock := .refclk }).note (.timebase .qualified)

/-- The judgement of a window (R131, R132, R134, R138). -/
def State.windowEnd (s : State) (edges : Nat) (receiving : Bool) : State :=
  let good := goodWindow edges
  match s.tm.timebase with
  | .startup =>
    if good then
      if Config.qualifyWindows ≤ s.tm.goodCount + 1 then s.qualify
      else s.setTm { s.tm with goodCount := s.tm.goodCount + 1 }
    else s.setTm { s.tm with goodCount := 0 }
  | .reference => if good then s else s.degrade receiving
  | .degraded =>
    if good then
      if s.tm.recovered then s
      else if Config.qualifyWindows ≤ s.tm.goodCount + 1 then
        (s.setTm { s.tm with goodCount := Config.qualifyWindows, recovered := true }).note (.timebase .recovered)
      else s.setTm { s.tm with goodCount := s.tm.goodCount + 1 }
    else
      let s1 := s.setTm { s.tm with goodCount := 0, recovered := false }
      if s.tm.recovered then s1.note (.timebase .failed) else s1

/-- MEASUREMENT_WINDOW_END (R129): windows run from the end of a reset. -/
def execMeasurementWindowEnd (edges : Nat) (receiving : Bool) (s : State) : Answer :=
  .next (if s.power.phase = .running then (s.windowEnd edges receiving).settle else s)

/-- The Line Unit's quiet point (R105). -/
def LineUnit.quiet (l : LineUnit) : Bool :=
  (l.tx == .idle || l.tx == .defer || l.tx == .backoff) && l.rx == .idle

/-- LINE_UNIT_TAKES_REFCLK (R105). -/
def execLineUnitTakesRefclk (s : State) : Answer :=
  .next (if s.tm.timebase = .reference ∧ s.lu.clock = .internal ∧ s.lu.quiet then
      s.setLu { s.lu with clock := .refclk }
    else s)

end Sys2Proof.Machine
end

