-- ==== Sys2Proof/WellFormed.lean ====
section
/-! DEFINITION. Which commands are well formed: what their types do not already say. -/

namespace Sys2Proof

/-- The bytes of a configuration record (R161). -/
def configRecordBytes : Nat := 17

/-- An entry record of a SNAPSHOT segment carries at most 4 slots and 6 waiters (R202). -/
def Entry.countsOk (e : Entry) : Bool :=
  e.holders.length ≤ Config.holderLimit && e.waiters.length ≤ Config.waiterLimit

/-- The counts that the receiver checks in a SNAPSHOT payload (R202). -/
def Payload.wf : Payload → Bool
  | .roster _ => true
  | .entries _ four => four.toList.all Entry.countsOk

/-- A frame body whose every field a receiver accepts (R9, R95, R201, R202). -/
def Body.wf : Body → Bool
  | .snapshot _ _ _ p => p.wf
  | .claim .. | .release .. | .renew _ | .withdraw .. | .expire .. => true
  | .join .. | .ready | .leave | .evict .. | .presence | .joinRefuse .. => true

/-- A frame that passes the receiver's checks. -/
def Frame.wf (f : Frame) : Bool := f.body.wf

/-- A well-formed command: WRITE_CONFIG carries 17 bytes (R156), UNKNOWN_COMMAND a byte that names no command
(R154), FRAME_ACCEPTED a frame that the receiver finds good (R97). -/
def Instr.wf : Instr → Bool
  | .writeConfig record => record.length == configRecordBytes
  | .unknownCommand code => hostCommandOf [code] == .unknownCommand code
  | .frameAccepted .own => true
  | .frameAccepted (.foreign f) => f.wf
  | .readStatus | .readCause | .clearCause | .readConfig | .start | .stop => true
  | .claim .. | .release _ | .withdraw _ | .keep | .readNote | .noteRecordRemoved | .noteCount => true
  | .queryEntry _ | .queryRoster _ | .queryRequest _ | .restoreTimebase | .reset | .transactionAborted => true
  | .commandReset | .commandResetEnd | .powerOnReset | .powerOnResetEnd | .pinReset | .pinResetEnd => true
  | .measurementWindowEnd _ _ | .lineUnitTakesRefclk | .integrationWaitEnd | .attemptStart | .collision => true
  | .jamEnd | .backoffEnd | .receptionVeto _ | .frameVetoed => true
  | .renewalDue _ | .selfLapse _ | .expiryWatchThreshold .. | .presenceDue | .presenceWatchThreshold _ => true
  | .joinWaitTimeout | .segmentStallTimeout | .keepWindowOpen | .keepPeriodEnd | .idleTimerReached => true
  | .supplyDriveThreshold _ | .csHighSeen => true

end Sys2Proof
end

