-- ==== Sys2Proof/Machine/LineEvents.lean ====
section
/-! DEFINITION. The meanings of the line's events (chapter 4). An event that cannot occur in the state it finds
changes nothing (log 5). -/

namespace Sys2Proof.Machine

/-- INTEGRATION_WAIT_END (R86): the line was RECESSIVE for 28 bit times, so no frame is on it, an own one least of all. -/
def execIntegrationWaitEnd (s : State) : Answer :=
  .next (if s.lu.integrating ∧ ¬ s.lu.sending then (s.setLu { s.lu.endReception with integrating := false }).settle
    else s)

/-- ATTEMPT_START (R88). While another station's frame or a line held DOMINANT keeps the receiver from IDLE no attempt
starts, and the transmitter stays as it is (R86, R88). -/
def execAttemptStart (s : State) : Answer := .next (if s.mayStart then s.startAttempt.settle else s)

/-- The transmitter has found a mismatch in the contention window in what it reads back (R82): it jams, and its attempt
has failed (R89). Its receiver reads the run of 16 DOMINANT bit times that is its jam (R96, log 20). -/
def State.jam (s : State) (readBack : List BitReading) : State :=
  (s.setLu { s.lu with rxRead := readBack, rxFailed := true, rxDominant := 16 }).attemptFailed true

/-- This station sends, and what it reads back differs from what it sends in the contention window (R82, R89). -/
def State.meets (s : State) (readBack : List BitReading) : Bool :=
  match s.lu.tx, s.lu.current with
  | .send, some a => Frame.collides a.frame readBack
  | _, _ => false

/-- COLLISION (R89): the mismatch is in the bit times read back, or in one that no row has carried while the contention
window is not over (log 20). -/
def execCollision (s : State) : Answer :=
  .next (match s.lu.tx, s.lu.current with
    | .send, some a =>
      if Frame.windowOpen a.frame s.lu.rxRead || Frame.collides a.frame s.lu.rxRead then (s.jam s.lu.rxRead).settle
      else s
    | _, _ => s)

/-- JAM_END (R89): the line reads RECESSIVE; the receiver is IDLE, a jamming transmitter goes to BACKOFF, or on
without backing off where the frame has left (R92). In SEND a run of 16 DOMINANT bit times came past the contention
window, and the receiver follows the frame on to its end mark (R90, DESIGN CHOICE, log 35). -/
def execJamEnd (s : State) : Answer :=
  .next (
    let l := s.lu.endReception
    match s.lu.tx, s.lu.backoff with
    | .jam, some _ => (s.setLu { l with tx := .backoff }).settle
    | .jam, none => (s.setLu { l with tx := .idle }).settle
    | .send, _ | .veto, _ => s
    | .idle, _ | .defer, _ | .backoff, _ => (s.setLu l).settle)

/-- BACKOFF_END (R93). -/
def execBackoffEnd (s : State) : Answer :=
  .next (if s.lu.tx = .backoff ∧ s.lu.backoffHeld = false then
      (s.setLu { s.lu with tx := .idle, backoff := none }).settle
    else s)

/-- This station's receiver follows a frame: it listens, or the frame is its own attempt, or what the timebase has left of
one (R105, R106). -/
def State.receiving (s : State) : Bool :=
  s.listening || s.lu.tx == .send || s.lu.tx == .veto || s.lu.rx != .idle

/-- The receiver has read so much of a frame (R94): it stands in RECEIVE, and its mark is set at the first finding (R95)
or at a run of 16 DOMINANT bit times, which makes the reception a collision (R96). -/
def State.followFrame (s : State) (readings : List BitReading) : State :=
  let run := longestDominant readings 0 0
  s.setLu { s.lu with
    rx := .receive, rxRead := readings, rxDominant := run
    rxFailed := s.lu.rxFailed || foundBad readings || decide (16 ≤ run) }

/-- The end mark of a frame found good (R91, R94): receiver and, for an own frame, transmitter watch the veto slot. -/
def State.watchSlot (s : State) (f : Frame) (readings : List BitReading) : State :=
  s.setLu { s.lu with
    rx := .veto, rxFrame := some f, rxRead := readings, rxDominant := longestDominant readings 0 0
    tx := if s.lu.tx = .send then .veto else s.lu.tx }

/-- The receiver vetoes a failed reception (R96): it drives the veto slot. The count moves unless the veto is on
account of the timebase (R99, R105). -/
def State.driveVeto (s : State) (readings : List BitReading) : State :=
  s.setLu { s.lu with
    rx := .veto, rxRead := readings, rxFailed := true, rxDominant := longestDominant readings 0 0
    vetoCount := if s.lu.rxTimebase then s.lu.vetoCount else s.lu.vetoCount + 1
    tx := if s.lu.tx = .send then .veto else s.lu.tx }

/-- The 32nd veto in a row: at the end of its slot an own attempt has failed, the receiver is muted and reported
(R99, R106, log 12). -/
def State.muteReceiver (s : State) : State :=
  let s1 := if s.lu.tx = .veto then s.attemptFailed false else s
  let s2 := s1.setLu { s1.lu.endReception with muted := true }
  s2.enterFaulted .receiverMuted

/-- The end mark of a reception that failed (R96, R99). -/
def State.vetoReception (s : State) (readings : List BitReading) : State :=
  let s1 := s.driveVeto readings
  if Config.muteLimit ≤ s1.lu.vetoCount ∧ ¬ s.lu.rxTimebase then s1.muteReceiver else s1

/-- What the receiver makes of the bit times of a reception. A collision is discarded, with no veto (R96); an own frame
that is still being sent past its contention window is vetoed all the same (R90, DESIGN CHOICE, log 35). -/
def State.reception (s : State) (readings : List BitReading) : State :=
  if endMarkRead readings ∧ (judge readings ≠ .collision ∨ s.lu.tx = .send) then
    match judge readings, s.lu.rxFailed with
    | .good f, false => s.watchSlot f readings
    | _, _ => s.vetoReception readings
  else s.followFrame readings

/-- RECEPTION_VETO (R96): the receiver has read these bit times of a frame. At the end mark of one that failed it drives
the veto slot; the table having no other row for the receiver, this one also carries a reception that is still running
and one found good (R94, DESIGN CHOICE, log 20). A sending station compares them with what it sends (R82) and jams at a
mismatch in the contention window (R89). In JAM, and in a veto slot, no reception runs. -/
def execReceptionVeto (readings : List BitReading) (s : State) : Answer :=
  .next (if s.receiving ∧ s.lu.tx ≠ .jam ∧ s.lu.rx ≠ .veto then
      (if s.meets readings then s.jam readings else s.reception readings).settle
    else s)

/-- FRAME_VETOED (R91): the frame is discarded; an own frame's attempt fails. -/
def execFrameVetoed (s : State) : Answer :=
  .next (match s.lu.tx with
    | .send | .veto => ((s.setLu s.lu.endReception).attemptFailed false).settle
    | .jam => s
    | .idle | .defer | .backoff => (s.setLu s.lu.endReception).settle)

/-- FRAME_ACCEPTED (R97): the own frame is the current attempt's; a frame read from the line is accepted while this
station listens, sends nothing itself and has not failed the reception. -/
def execFrameAccepted (f : LineFrame) (s : State) : Answer :=
  .next (match f, s.lu.current with
    | .own, some a =>
      if (s.lu.tx = .send ∨ s.lu.tx = .veto) ∧ ¬ s.lu.rxFailed then (s.acceptOwn a).settle else s
    | .own, none => s
    | .foreign g, _ =>
      if s.listening ∧ ¬ s.lu.sending ∧ ¬ s.lu.rxFailed ∧ g.wf then (s.acceptForeign g).settle else s)

end Sys2Proof.Machine
end

