-- ==== Sys2Proof/Machine/ResetEvents.lean ====
section
/-! DEFINITION. The meanings of the resets and of the supply events (R159, R160, R196, R197). -/

namespace Sys2Proof.Machine

/-- Every block takes its reset values (R4, R32, R54, R87, R94, R107, R128, R139, R148, R178). The command reset keeps
the configuration record and the grant maps; the others lose them (R148, R162). The cause record is written when the
reset ends. -/
def State.resetBlocks (s : State) (keepRecord : Bool) : State :=
  { s with
    port := .waitHigh, response := [], config := if keepRecord then s.config else none, requests := [],
    replica := Replica.cleared, sc := StationCtl.afterReset, tu := TimerUnit.afterReset, lu := LineUnit.afterReset,
    tm := TimebaseMonitor.afterReset, kp := KeepPermit.afterReset,
    gou := if keepRecord then { s.gou with active := Vector.replicate 8 false } else GrantOutputs.afterPowerOn,
    nu := NoteUnit.afterReset }

/-- The reset in progress. -/
def State.setPhase (s : State) (p : ResetPhase) : State := s.setPower { s.power with phase := p }

/-- COMMAND_RESET (R159): CS# rises at the end of a RESET transaction. -/
def execCommandReset (s : State) : Answer :=
  .next (if s.power.phase = .running ∧ s.port = .resetTaken then (s.resetBlocks true).setPhase .command else s)

/-- COMMAND_RESET_END (R159, R160). -/
def execCommandResetEnd (s : State) : Answer :=
  .next (if s.power.phase = .command then (s.setPhase .running).setCause { s.cause with command := true } else s)

/-- RESET# is low or in its ending span (R196), in a pin reset or under a power-on reset. -/
def ResetPhase.pinActive : ResetPhase → Bool
  | .pin => true
  | .powerOn p => p.pinActive
  | .running | .command => false

/-- VDD is below the power-on thresholds (R197): the part is in power-on reset, no hold time runs, and RESET# stays as it
is. -/
def State.powerOn (s : State) : State :=
  (s.resetBlocks false).setPhase (.powerOn { holding := false, pinActive := s.power.phase.pinActive, pinLow := false })

/-- POWER_ON_RESET (R197): VDD below the rising threshold holds the part in power-on reset, below the falling threshold
puts it there. -/
def execPowerOnReset (s : State) : Answer := .next s.powerOn

/-- The end of a hold time (R160, R197): POWER is set, PIN and COMMAND cleared. A RESET# that was low in the hold time goes
on as a pin reset until it has ended, and PIN is set then; where it has ended, PIN is set here. -/
def State.holdTimeEnds (s : State) (p : PowerOnReset) : State :=
  (s.setPhase (if p.pinLow ∧ p.pinActive then .pin else .running)).setCause
    { power := true, pin := p.pinLow && !p.pinActive, command := false }

/-- POWER_ON_RESET_END (R197, R160): the hold time runs out; where none runs the row changes nothing (log 5). -/
def execPowerOnResetEnd (s : State) : Answer :=
  .next (match s.power.phase with
    | .powerOn p => if p.holding then s.holdTimeEnds p else s
    | .running | .pin | .command => s)

/-- PIN_RESET (R196): a filtered low on RESET# is recognised. A power-on reset holds it, and counts it where the hold time
runs (R197). -/
def execPinReset (s : State) : Answer :=
  .next (match s.power.phase with
    | .powerOn p => s.setPhase (.powerOn { p with pinActive := true, pinLow := p.pinLow || p.holding })
    | .running | .pin | .command => (s.resetBlocks false).setPhase .pin)

/-- PIN_RESET_END (R196, R160): the ending span has run. In a power-on reset only the low's end is noted (R197). -/
def execPinResetEnd (s : State) : Answer :=
  .next (match s.power.phase with
    | .pin => (s.setPhase .running).setCause { s.cause with pin := true }
    | .powerOn p => s.setPhase (.powerOn { p with pinActive := false })
    | .running | .command => s)

/-- VDD rises past the power-on rising threshold (R197): in a power-on reset the hold time begins, or begins again, and a
RESET# that is low there is low in it. Elsewhere VDD has not been below the falling threshold, and the part goes on. -/
def ResetPhase.holdFrom (pinLow : Bool) : ResetPhase → ResetPhase
  | .powerOn p => .powerOn { holding := true, pinActive := p.pinActive || pinLow, pinLow := pinLow }
  | .running => .running
  | .pin => .pin
  | .command => .command

/-- SUPPLY_DRIVE_THRESHOLD (R191 to R194, R197): VDD rises past the drive threshold, and the output drivers are enabled; it
falls past it, and they are not, and VDD is below the power-on falling threshold too (R199, log 19); or it rises past the
power-on rising threshold, which lies above the drive threshold (log 19). -/
def execSupplyDriveThreshold (crossing : SupplyCrossing) (s : State) : Answer :=
  .next (match crossing with
    | .driveRising => s.setPower { s.power with drivers := true }
    | .driveFalling => s.powerOn.setPower { s.powerOn.power with drivers := false }
    | .powerOnRising pinLow => s.setPower { phase := s.power.phase.holdFrom pinLow, drivers := true })

end Sys2Proof.Machine
end

