-- ==== Sys2Proof/Machine/TimerEvents.lean ====
section
/-! DEFINITION. The meanings of the timer thresholds (chapters 3, 5, 7, 9). A row acts when its timer stands at its
threshold or past it; a timer that stands lower, restarted since, has not reached it, and the row changes nothing (log 4,
log 5). -/

namespace Sys2Proof.Machine

/-- RENEWAL_DUE (R109): the RENEW is offered when the conditions hold. -/
def execRenewalDue (r : Resource) (s : State) : Answer :=
  .next (if s.tu.holds.any (fun h => h.r == r && decide (s.renewalMs ≤ h.elapsed)) then s.settle else s)

/-- SELF_LAPSE (R111). -/
def execSelfLapse (r : Resource) (s : State) : Answer :=
  .next (if s.sc.station = .member
        ∧ s.tu.holds.any (fun h => h.r == r && !h.lapsed && decide (s.lapseMs ≤ h.elapsed)) then
      (s.lapseHold r).settle
    else s)

/-- EXPIRY_WATCH_THRESHOLD (R114). -/
def execExpiryWatchThreshold (r : Resource) (holder : Station) (s : State) : Answer :=
  .next (match s.tu.expiry.find? (fun w => w.on r holder) with
    | some w => if s.expiryMs ≤ w.elapsed then (s.offerExpire w).settle else s
    | none => s)

/-- PRESENCE_DUE (R117): a PRESENCE already offered stays the candidate. -/
def execPresenceDue (s : State) : Answer :=
  .next (if s.presenceCondition then
      (s.setTu { s.tu with presenceOffer := s.tu.presenceOffer.orElse (fun _ => some 0) }).settle
    else s)

/-- PRESENCE_WATCH_THRESHOLD (R119). -/
def execPresenceWatchThreshold (v : Station) (s : State) : Answer :=
  .next (match s.tu.presence.find? (fun w => w.station == v) with
    | some w => if s.evictionMs ≤ w.elapsed then (s.offerEvict w).settle else s
    | none => s)

/-- JOIN_WAIT_TIMEOUT (R61, R62). -/
def execJoinWaitTimeout (s : State) : Answer :=
  .next (if s.sc.station = .joinWait ∧ timerReached s.sc.joinTimer s.joinWaitMs then
      (if s.sc.memberHeard ∨ s.sc.lowerHeard then s.failedAttempt false else s.found).settle
    else s)

/-- SEGMENT_STALL_TIMEOUT (R62). -/
def execSegmentStallTimeout (s : State) : Answer :=
  .next (if s.sc.station = .snapshot ∧ timerReached s.sc.stallTimer s.joinWaitMs then (s.failedAttempt false).settle
    else s)

/-- KEEP_WINDOW_OPEN (R141). -/
def execKeepWindowOpen (s : State) : Answer :=
  .next (if s.kp.permit = .early ∧ timerReached s.kp.timer s.keepWindowMs then s.setKp { s.kp with permit := .window }
    else s)

/-- KEEP_PERIOD_END (R141, R144). -/
def execKeepPeriodEnd (s : State) : Answer :=
  .next (if s.kp.permit = .window ∧ timerReached s.kp.timer s.keepPeriodMs then (s.permitLapse .late).settle else s)

/-- IDLE_TIMER_REACHED (R185, R187). -/
def execIdleTimerReached (s : State) : Answer :=
  .next (match s.nu.idle, s.config with
    | .running n, some c => if c.irqIdle ≤ n then (s.setNu { s.nu with idle := .reached }).refreshIrq else s
    | _, _ => s)

end Sys2Proof.Machine
end

