-- ==== Sys2Proof/Machine/Dispatch.lean ====
section
/-! DEFINITION. The dispatch of every command to its meaning, one arm per constructor. -/

namespace Sys2Proof.Machine

def exec (i : Instr) (s : State) : Host.Outcome State Fault Refusal :=
  match i with
  | .readStatus => Sys2Proof.Machine.execReadStatus s
  | .readCause => Sys2Proof.Machine.execReadCause s
  | .clearCause => Sys2Proof.Machine.execClearCause s
  | .writeConfig record => Sys2Proof.Machine.execWriteConfig record s
  | .readConfig => Sys2Proof.Machine.execReadConfig s
  | .start => Sys2Proof.Machine.execStart s
  | .stop => Sys2Proof.Machine.execStop s
  | .claim resource mode wait => Sys2Proof.Machine.execClaim resource mode wait s
  | .release resource => Sys2Proof.Machine.execRelease resource s
  | .withdraw resource => Sys2Proof.Machine.execWithdraw resource s
  | .keep => Sys2Proof.Machine.execKeep s
  | .readNote => Sys2Proof.Machine.execReadNote s
  | .noteRecordRemoved => Sys2Proof.Machine.execNoteRecordRemoved s
  | .noteCount => Sys2Proof.Machine.execNoteCount s
  | .queryEntry resource => Sys2Proof.Machine.execQueryEntry resource s
  | .queryRoster station => Sys2Proof.Machine.execQueryRoster station s
  | .queryRequest tag => Sys2Proof.Machine.execQueryRequest tag s
  | .restoreTimebase => Sys2Proof.Machine.execRestoreTimebase s
  | .reset => Sys2Proof.Machine.execReset s
  | .unknownCommand code => Sys2Proof.Machine.execUnknownCommand code s
  | .transactionAborted => Sys2Proof.Machine.execTransactionAborted s
  | .commandReset => Sys2Proof.Machine.execCommandReset s
  | .commandResetEnd => Sys2Proof.Machine.execCommandResetEnd s
  | .powerOnReset => Sys2Proof.Machine.execPowerOnReset s
  | .powerOnResetEnd => Sys2Proof.Machine.execPowerOnResetEnd s
  | .pinReset => Sys2Proof.Machine.execPinReset s
  | .pinResetEnd => Sys2Proof.Machine.execPinResetEnd s
  | .measurementWindowEnd edges receiving => Sys2Proof.Machine.execMeasurementWindowEnd edges receiving s
  | .lineUnitTakesRefclk => Sys2Proof.Machine.execLineUnitTakesRefclk s
  | .integrationWaitEnd => Sys2Proof.Machine.execIntegrationWaitEnd s
  | .attemptStart => Sys2Proof.Machine.execAttemptStart s
  | .collision => Sys2Proof.Machine.execCollision s
  | .jamEnd => Sys2Proof.Machine.execJamEnd s
  | .backoffEnd => Sys2Proof.Machine.execBackoffEnd s
  | .receptionVeto readings => Sys2Proof.Machine.execReceptionVeto readings s
  | .frameVetoed => Sys2Proof.Machine.execFrameVetoed s
  | .frameAccepted f => Sys2Proof.Machine.execFrameAccepted f s
  | .renewalDue r => Sys2Proof.Machine.execRenewalDue r s
  | .selfLapse r => Sys2Proof.Machine.execSelfLapse r s
  | .expiryWatchThreshold r holder => Sys2Proof.Machine.execExpiryWatchThreshold r holder s
  | .presenceDue => Sys2Proof.Machine.execPresenceDue s
  | .presenceWatchThreshold v => Sys2Proof.Machine.execPresenceWatchThreshold v s
  | .joinWaitTimeout => Sys2Proof.Machine.execJoinWaitTimeout s
  | .segmentStallTimeout => Sys2Proof.Machine.execSegmentStallTimeout s
  | .keepWindowOpen => Sys2Proof.Machine.execKeepWindowOpen s
  | .keepPeriodEnd => Sys2Proof.Machine.execKeepPeriodEnd s
  | .idleTimerReached => Sys2Proof.Machine.execIdleTimerReached s
  | .supplyDriveThreshold crossing => Sys2Proof.Machine.execSupplyDriveThreshold crossing s
  | .csHighSeen => Sys2Proof.Machine.execCsHighSeen s

end Sys2Proof.Machine
end

