-- ==== Sys2Proof/Machine/Tick.lean ====
section
/-! DEFINITION. The passing of one millisecond of the current timebase (R130, log 2): every running timer counts, and
the threshold rows that fall due join the queue, in an order that is free where the spec gives none (log 3). -/

namespace Sys2Proof.Machine

/-- The Timer Unit's counts (R107, R111, R112). -/
def TimerUnit.advance (t : TimerUnit) : TimerUnit :=
  { t with
    holds := t.holds.map (fun h => if h.running then { h with elapsed := h.elapsed + 1 } else h)
    expiry := t.expiry.map (fun w => { w with elapsed := w.elapsed + 1 })
    presence := t.presence.map (fun w => { w with elapsed := w.elapsed + 1 })
    presenceTimer := t.presenceTimer.map (· + 1) }

/-- A backoff that has begun counts down the bit times of the millisecond, whatever the line carries (R87, R93). -/
def LineUnit.advance (l : LineUnit) (bits : Nat) : LineUnit :=
  match l.tx, l.backoffHeld, l.backoff with
  | .backoff, false, some n => { l with backoff := some (n - bits) }
  | _, _, _ => l

/-- The idle timer counts until it is reached (R185). -/
def IdleTimer.advance : IdleTimer → IdleTimer
  | .running n => .running (n + 1)
  | .stopped => .stopped
  | .reached => .reached

/-- Every running timer counts one millisecond. -/
def State.advance (s : State) : State :=
  { s with
    tu := s.tu.advance
    sc := { s.sc with joinTimer := s.sc.joinTimer.map (· + 1), stallTimer := s.sc.stallTimer.map (· + 1) }
    lu := s.lu.advance s.bitsPerMs
    kp := { s.kp with timer := s.kp.timer.map (· + 1) }
    nu := { s.nu with idle := s.nu.idle.advance } }

/-- The rows whose timer stands exactly at its threshold, and the end of a backoff that has run out. -/
def State.dueEvents (s : State) : List Instr :=
  (s.tu.holds.filter (fun h => h.running && !h.lapsed && h.elapsed == s.lapseMs && s.sc.station == .member)).map
    (fun h => .selfLapse h.r)
  ++ (s.tu.holds.filter (fun h => h.running && h.elapsed == s.renewalMs)).map (fun h => .renewalDue h.r)
  ++ (s.tu.expiry.filter (fun w => w.elapsed == s.expiryMs)).map (fun w => .expiryWatchThreshold w.r w.holder)
  ++ (s.tu.presence.filter (fun w => w.elapsed == s.evictionMs)).map (fun w => .presenceWatchThreshold w.station)
  ++ (if s.tu.presenceTimer = some s.presenceMs then [.presenceDue] else [])
  ++ (if s.sc.joinTimer = some s.joinWaitMs then [.joinWaitTimeout] else [])
  ++ (if s.sc.stallTimer = some s.joinWaitMs then [.segmentStallTimeout] else [])
  ++ (if s.kp.permit = .early ∧ s.kp.timer = some s.keepWindowMs then [.keepWindowOpen] else [])
  ++ (if s.kp.permit = .window ∧ s.kp.timer = some s.keepPeriodMs then [.keepPeriodEnd] else [])
  ++ (match s.config with
      | some c => if s.nu.idle = .running c.irqIdle then [.idleTimerReached] else []
      | none => [])
  ++ (if s.lu.tx = .backoff ∧ s.lu.backoff = some 0 ∧ s.lu.backoffHeld = false then [.backoffEnd] else [])

/-- The number of an event in the free order: the lapses of one millisecond share one, so that they keep ascending
resource number (R111). -/
def eventKey : Instr → Nat
  | .selfLapse _ => 0
  | .renewalDue r => 1 + r.val
  | .expiryWatchThreshold r h => 100 + 32 * r.val + h.val
  | .presenceWatchThreshold v => 3000 + v.val
  | .presenceDue => 4000
  | .joinWaitTimeout => 4001
  | .segmentStallTimeout => 4002
  | .keepWindowOpen => 4003
  | .keepPeriodEnd => 4004
  | .backoffEnd => 4005
  | _ => 4006

/-- Insertion by rank, before the first of no lower rank. -/
def insertByRank (rank : Instr → Nat) (x : Instr) : List Instr → List Instr
  | [] => [x]
  | y :: ys => if rank x ≤ rank y then x :: y :: ys else y :: insertByRank rank x ys

/-- Events in rising rank; events of one rank keep their order. -/
def orderByRank (rank : Instr → Nat) (xs : List Instr) : List Instr := xs.foldr (insertByRank rank) []

/-- One millisecond passes (log 2). -/
def State.tick (s : State) : State :=
  let s1 := s.advance
  let due := orderByRank (fun i => Config.tieRank s.freeIndex (eventKey i)) s1.dueEvents
  (s1.setFreeIndex (s.freeIndex + 1)).setPending due

end Sys2Proof.Machine
end

