-- ==== Sys2Proof/Machine/Step.lean ====
section
/-! DEFINITION. One step: the command at the front of the queue, or a millisecond passing when the queue is empty
(log 1, log 2). -/

namespace Sys2Proof.Machine

/-- The step function. -/
def step (s : State) : Host.Outcome State Fault Refusal :=
  match s.pending with
  | c :: rest => exec c (s.setPending rest)
  | [] => .next s.tick

/-- A command put at the front of the queue. -/
def State.enqueueFront (s : State) (c : Instr) : State := s.setPending (c :: s.pending)

/-- The command that a table word spells, put at the front of the queue; the table gives no bits, so no word does. -/
def State.withFetchWord (s : State) (nbits w : Nat) : State :=
  match decodeTableWord nbits w with
  | some c => s.enqueueFront c
  | none => s

end Sys2Proof.Machine
end

