-- ==== Sys2Proof/Safety.lean ====
section
/-! DEFINITION. The vocabulary of the statements: the laws that the spec gives for every reachable state, and what may
follow at once from a change of the state. -/

namespace Sys2Proof.Machine

/-! ## Laws of the state -/

/-- The grant lines stand as R148 gives them, and IRQ# as R186 does, with a threshold of at least 1 (R161, R187). -/
def State.outputsOk (s : State) : Prop :=
  s.gou.active = s.lineLevels ∧ s.nu.irq = s.irqCondition ∧ 1 ≤ s.threshold

/-- At most 16 request records, with distinct tags and at most one for a resource (R164). -/
def State.requestsOk (s : State) : Prop :=
  s.requests.length ≤ 16 ∧ (s.requests.map Request.tag).Nodup ∧ (s.requests.map Request.r).Nodup

/-- At most 32 notification records and a dropped count of at most 255 (R178). -/
def State.notesOk (s : State) : Prop := s.nu.queue.length ≤ 32 ∧ s.nu.dropped ≤ 255

/-- At most 24 records in the catch-up queue (R65). -/
def State.catchUpOk (s : State) : Prop := s.sc.catchUp.length ≤ 24

/-- R1, R2 and R10 in every entry of the lease table. -/
def Replica.tableOk (x : Replica) : Prop :=
  ∀ r : Resource, x.entries[r].consistent = true ∧ x.entries[r].settled = true

/-- The fields of a configuration record lie in their ranges and the digest is theirs (R161, R163). -/
def ConfigRecord.inRange (c : ConfigRecord) : Prop :=
  (1 ≤ c.leaseTerm ∧ c.leaseTerm ≤ 255) ∧ (1 ≤ c.presencePeriod ∧ c.presencePeriod ≤ 255)
  ∧ (2 ≤ c.missLimit ∧ c.missLimit ≤ 15) ∧ (c.retryLimit = 8 ∨ c.retryLimit = 16)
  ∧ (c.keepPeriod = 0 ∨ (2 ≤ c.keepPeriod ∧ c.keepPeriod ≤ 255))
  ∧ (1 ≤ c.irqThreshold ∧ c.irqThreshold ≤ 16) ∧ (1 ≤ c.irqIdle ∧ c.irqIdle ≤ 255)
  ∧ c.digest = crc [rateByte c.rate, byteOf c.leaseTerm, byteOf c.presencePeriod, byteOf c.missLimit]

/-! ## What a command leaves -/

/-- The state after a host command that changes nothing but its response (R153). -/
def State.answered (s : State) (bytes : List Byte) : State := { s with response := bytes, port := .ready }

/-- The commands that the host clocks in through the serial port (R153, R156). -/
def isHostCommand : Instr → Bool
  | .readStatus | .readCause | .clearCause | .writeConfig _ | .readConfig | .start | .stop => true
  | .claim .. | .release _ | .withdraw _ | .keep | .readNote | .noteCount => true
  | .queryEntry _ | .queryRoster _ | .queryRequest _ | .restoreTimebase | .reset => true
  | .unknownCommand _ | .transactionAborted => true
  | _ => false

/-- Several records arrive, in order (R180, R184). -/
def NoteUnit.arriveAll (n : NoteUnit) (xs : List Note) : NoteUnit := xs.foldl NoteUnit.arrive n

/-- The record's RENEW is a candidate. -/
def OwnHold.offered (h : OwnHold) : Bool :=
  match h.renewal with
  | .candidate _ => true
  | .idle | .barred => false

/-- The record with the renewal state that R109 and R110 give it at once in state `t`: a RENEW that becomes due is offered
with count 0, one that is offered keeps its count while its conditions hold and is withdrawn when they fail, and a record
whose re-offer is barred stays barred (R92). -/
def State.withRenewal (t : State) (h : OwnHold) : OwnHold :=
  { h with renewal :=
      match h.renewal with
      | .idle => if t.renewAllowed h = true ∧ t.renewalMs ≤ h.elapsed then .candidate 0 else .idle
      | .candidate n => if t.renewAllowed h then .candidate n else .idle
      | .barred => .barred }

/-- `t` is `e` after what follows at once: each RENEW stands as R109 and R110 give, a RENEW in an attempt whose conditions
fail is withdrawn (R92), the transmitter stands in DEFER or IDLE by whether a candidate waits (R87; log 38), the grant lines
stand as R148 gives and IRQ# as R186 does. Nothing else differs. -/
structure SettlesTo (e t : State) : Prop where
  frame : t = { e with
    tu := { e.tu with holds := t.tu.holds }, lu := { e.lu with tx := t.lu.tx, current := t.lu.current },
    gou := { e.gou with active := t.gou.active }, nu := { e.nu with irq := t.nu.irq } }
  holds : t.tu.holds = e.tu.holds.map t.withRenewal
  attempt : t.lu.current = e.lu.current.map (fun a =>
    match a.source with
    | .renew r => if e.tu.holds.any (fun h => h.r == r && t.renewAllowed h) then a else { a with withdrawn := true }
    | .control _ | .verdict _ | .segment _ | .surrender _ | .host _ | .presence => a)
  transmitter : t.lu.tx =
    if e.lu.tx = .idle ∨ e.lu.tx = .defer then (if t.listening && !t.candidates.isEmpty then .defer else .idle)
    else e.lu.tx
  lines : t.gou.active = t.lineLevels
  irq : t.nu.irq = t.irqCondition

/-! ## Requests and the permit -/

/-- The status of the first check that a CLAIM fails, 00h when it passes them all (R157, R165, R203). -/
def claimStatus (s : State) (resource mode wait : Byte) : Byte :=
  match resourceOf resource, modeOf mode, waitOf wait with
  | some r, some _, some _ =>
    if s.sc.station ≠ .member then 0x01
    else if 16 ≤ s.requests.length then 0x05
    else if s.requests.any (fun q => q.r == r) ∨ s.surrendering r then 0x06
    else if s.holdsOwn r then 0x07
    else if s.waitsOwn r then 0x09
    else if s.kp.permit.isLapsed then 0x0B
    else 0x00
  | _, _, _ => 0x02

/-- The same for a RELEASE (R166) and a WITHDRAW (R167), whose last checks are given. -/
def removalStatus (s : State) (resource : Byte) (ok : Resource → Bool) (status : Byte) : Byte :=
  match resourceOf resource with
  | some r =>
    if s.sc.station ≠ .member then 0x01
    else if 16 ≤ s.requests.length then 0x05
    else if s.requests.any (fun q => q.r == r) ∨ s.surrendering r then 0x06
    else if ok r then 0x00
    else status
  | none => 0x02

/-- What a lapse of the keep permit leaves (R144): the state and cause, the QUEUED CLAIMs cancelled in queue order, then
the PERMIT record, every line inactive, no RENEW offered, and every held or waited resource in the surrender set unless
its host RELEASE or WITHDRAW is pending. Everything else stands as it was. -/
structure PermitLapses (s t : State) (cause : LapseCause) : Prop where
  permit : t.kp = { permit := .lapsed cause, timer := none }
  requests : t.requests = s.requests.filter (fun q => !q.isQueuedClaim)
  notes : { t.nu with irq := s.nu.irq } = s.nu.arriveAll
    ((s.requests.filter Request.isQueuedClaim).map (fun q => .done q.tag .cancelled q.r)
      ++ [.permit (match cause with | .early => .lapsedEarly | .late => .lapsedLate)])
  lines : (∀ x : Fin 8, t.gou.active[x] = false) ∧ t.gou.maps = s.gou.maps
  renewals : (∀ h ∈ t.tu.holds, h.offered = false) ∧ t.tu.holds = s.tu.holds.map t.withRenewal
  surrender : ∀ r : Resource, t.surrenderMark r =
    if s.surrendering r then s.surrenderMark r
    else if s.holdsOwn r ∧ ¬ s.releasePending r then some .hold
    else if s.waitsOwn r ∧ ¬ s.withdrawPending r then some .wait
    else none
  frame : t = { s with
    kp := t.kp, requests := t.requests, nu := t.nu, gou := t.gou, response := t.response, port := t.port,
    tu := { s.tu with holds := t.tu.holds, surrender := t.tu.surrender },
    lu := { s.lu with tx := t.lu.tx, current := t.lu.current } }

/-! ## Frames on the line -/

/-- The line unit with its reception over, and a backoff held until then begun. -/
def LineUnit.cleared (l : LineUnit) : LineUnit :=
  { l with
    rx := .idle, rxFrame := none, rxRead := [], rxFailed := false, rxTimebase := false, rxDominant := 0
    backoffHeld := false }

/-- What the transmitter of `f` reads back shows a mismatch in the contention window: in a bit time of its first 24 a half
that it released reads DOMINANT (R82, R84, R89). -/
def meetsAnother (f : Frame) (readBack : List BitReading) : Prop :=
  ∃ (i : Nat) (sent : Bool) (read : BitReading), (Frame.windowBits f)[i]? = some sent ∧ readBack[i]? = some read
    ∧ (read = .dominant ∨ read = if sent then .zero else .one)

/-- This station's attempt `a` fails with the event `c`, and `l` is the line unit then, before any backoff: vetoed, its
slot is over (R91); met by another transmitter in the contention window, it jams (R89, R96), the mismatch being in the bit
times that the event brings, in those read before, or in one not yet read when the event says so (log 20). -/
def State.fails (s : State) (a : Attempt) (c : Instr) (l : LineUnit) : Prop :=
  s.lu.current = some a
  ∧ ((c = .frameVetoed ∧ (s.lu.tx = .send ∨ s.lu.tx = .veto)
        ∧ l = { s.lu.cleared with tx := .idle, current := none, backoff := none })
    ∨ ∃ readBack, s.lu.tx = .send
        ∧ ((c = .collision ∧ readBack = s.lu.rxRead ∧ (readBack.length < 24 ∨ meetsAnother a.frame readBack))
          ∨ (c = .receptionVeto readBack ∧ s.lu.rx ≠ .veto ∧ meetsAnother a.frame readBack))
        ∧ l = { s.lu with
            tx := .jam, current := none, backoff := none, rxRead := readBack, rxFailed := true, rxDominant := 16 })

/-- The line unit after this station's attempt has been accepted (R91, R97). -/
def State.lineAfterOwn (s : State) : LineUnit :=
  { s.lu.cleared with tx := .idle, current := none, backoff := none, vetoCount := 0 }

/-- This station accepts `f` from another station: it listens, sends nothing itself, has not failed the reception, and
finds every field in range (R97). -/
def State.hears (s : State) (f : Frame) : Prop :=
  s.listening = true ∧ s.lu.tx ≠ .send ∧ s.lu.tx ≠ .jam ∧ s.lu.tx ≠ .veto ∧ s.lu.rxFailed = false ∧ f.wf = true

/-- This station's current attempt `a` has reached the end of its veto slot unvetoed (R97, R98). -/
def State.sent (s : State) (a : Attempt) : Prop :=
  s.lu.current = some a ∧ (s.lu.tx = .send ∨ s.lu.tx = .veto) ∧ s.lu.rxFailed = false

/-- The chosen frame of this source passes its check at attempt start (R104; a RENEW is a candidate in MEMBER alone, R109; the
presence condition is that of R117). -/
def State.mayBeSent (s : State) : Source → Prop
  | .control _ | .segment _ => True
  | .renew r => s.sc.station = .member ∧ (∃ h ∈ s.tu.holds, h.r = r ∧ h.lapsed = false) ∧ s.surrendering r = false
      ∧ s.releasePending r = false ∧ s.kp.permit.isLapsed = false
  | .verdict (.expire r h g) => s.sc.station = .member ∧ s.tm.timebase ≠ .degraded
      ∧ s.replica.entries[r].holdsAt h g = true
  | .verdict (.evict v i) => s.sc.station = .member ∧ s.tm.timebase ≠ .degraded
      ∧ s.replica.roster[v].state ≠ .absent ∧ s.replica.roster[v].inc = i
  | .surrender r => (s.surrenderMark r = some .hold ∧ s.holdsOwn r = true)
      ∨ (s.surrenderMark r = some .wait ∧ s.waitsOwn r = true)
  | .host tag => ∃ q, s.requests.find? (fun x => x.tag == tag) = some q
      ∧ (q.state = .queued → (q.kind = .release → s.holdsOwn q.r = true) ∧ (q.kind = .withdraw → s.waitsOwn q.r = true))
  | .presence => (s.sc.station = .member ∨ s.sc.station = .synced ∨ s.sc.station = .snapshot
        ∨ (s.sc.station = .joinWait ∧ s.sc.joinAccepted = true))
      ∧ ∃ n, s.tu.presenceTimer = some n ∧ 10 * s.configField ConfigRecord.presencePeriod ≤ n

/-- What a table frame of a valid actor `v` does to the entry it names, with the grants of its promotion (R12 to R22). -/
def tableRule (e : Entry) (v : Station) : Body → Entry × List Grant
  | .claim _ m w _ => (e.claim v m w, [])
  | .release _ _ => if e.holds v then (e.dropHolder v).promote else (e, [])
  | .renew _ => (if e.holds v then e.renew v else e, [])
  | .withdraw _ _ => if e.waits v then (e.dropWaiter v).promote else (e, [])
  | .expire _ h g => if e.holdsAt h g then (e.dropHolder h).promote else (e, [])
  | .join .. | .ready | .leave | .evict .. | .presence | .joinRefuse .. | .snapshot .. => (e, [])

/-- The holder slots of an entry that a frame removes, renews and creates, a created one with its generation (R28). -/
structure SlotChanges where
  removed : Option Station
  renewed : Option Station
  created : List (Station × Word16)

/-- What a table frame of a valid actor `v` does to the slots of the entry it names (R12 to R22). -/
def slotChanges (e : Entry) (v : Station) (b : Body) : SlotChanges :=
  let promoted := (tableRule e v b).2.map (fun g => (g.station, g.gen))
  match b with
  | .claim _ m w _ =>
    { removed := none, renewed := none, created := if e.decideClaim v m w = .granted then [(v, e.gen + 1)] else [] }
  | .release _ _ => { removed := if e.holds v then some v else none, renewed := none, created := promoted }
  | .renew _ => { removed := none, renewed := if e.holds v then some v else none, created := [] }
  | .withdraw _ _ => { removed := none, renewed := none, created := promoted }
  | .expire _ h g => { removed := if e.holdsAt h g then some h else none, renewed := none, created := promoted }
  | .join .. | .ready | .leave | .evict .. | .presence | .joinRefuse .. | .snapshot .. =>
    { removed := none, renewed := none, created := [] }

/-- The expiry watches after these changes to the slots of other stations in entry `r` (R113, R115): a removed slot's is
closed, a renewed slot's restarts with generation `g`, a created slot's opens from zero. -/
def expiryAfter (ws : List ExpiryWatch) (own : Station) (r : Resource) (c : SlotChanges) (g : Word16) :
    List ExpiryWatch :=
  ((ws.filter (fun w => !(w.r == r && w.holder != own
      && (c.removed == some w.holder || c.created.any (fun x => x.1 == w.holder))))).map
    (fun w => if w.r = r ∧ c.renewed = some w.holder then { w with gen := g, elapsed := 0, queued := false } else w))
  ++ (c.created.filter (fun x => x.1 != own)).map
    (fun x => { r := r, holder := x.1, gen := x.2, elapsed := 0, queued := false })

/-- The own-hold records after them (R108): a slot of this station created opens one from zero, one removed closes it. -/
def holdsAfter (hs : List OwnHold) (own : Station) (r : Resource) (c : SlotChanges) : List OwnHold :=
  match c.created.find? (fun x => x.1 == own) with
  | some x => insertHold { r := r, gen := x.2, elapsed := 0, running := true, lapsed := false, renewal := .idle }
      (hs.filter (fun h => h.r != r))
  | none => if c.removed = some own then hs.filter (fun h => h.r != r) else hs

/-- The surrender set after them (R122, R124): a grant to this station turns a wait to hold with a fresh count, or enters
the resource while the permit is LAPSED; an EXPIRE of its hold takes the resource out. -/
def surrenderAfter (ms : List SurrenderItem) (own : Station) (r : Resource) (c : SlotChanges) (lapsed : Bool) :
    List SurrenderItem :=
  if c.created.any (fun x => x.1 == own) then
    if lapsed && !ms.any (fun m => m.r == r) then insertSurrender { r := r, mark := .hold, count := 0 } ms
    else ms.map (fun m => if m.r = r ∧ m.mark = .wait then { m with mark := .hold, count := 0 } else m)
  else if c.removed = some own then ms.filter (fun m => m.r != r) else ms

/-- What the removal of station `v` does to an entry in which it holds or waits, with the grants of the promotion (R25). -/
def removalRule (e : Entry) (v : Station) : Entry × List Grant :=
  if e.holds v then (e.dropHolder v).promote else if e.waits v then (e.dropWaiter v).promote else (e, [])

/-- Roster entry `x` after the removal of `v` (R46, R47): `v` is ABSENT, and its partner's half of a pairing is cleared. -/
def rosterWithout (roster : Vector RosterEntry 32) (v x : Station) : RosterEntry :=
  if x = v then { state := .absent, inc := roster[v].inc, provider := none, providingFor := none }
  else { roster[x] with
    provider := if roster[v].providingFor = some x then none else roster[x].provider
    providingFor := if roster[v].provider = some x then none else roster[x].providingFor }

/-- The resource that a table frame names (R201). -/
def tableResource : Body → Option Resource
  | .claim r .. | .release r _ | .renew r | .withdraw r _ | .expire r .. => some r
  | .join .. | .ready | .leave | .evict .. | .presence | .joinRefuse .. | .snapshot .. => none

/-- The outcome that the decision of R12 delivers to a CLAIM's request. -/
def claimOutcome (e : Entry) (v : Station) (m : LeaseMode) (wait : Bool) : ReqOutcome :=
  match e.decideClaim v m wait with
  | .refusedHeld => .refusedHeld
  | .refusedWaiting => .refusedWaiting
  | .granted => .granted
  | .waiting => .waiting (e.waiters.length + 1)
  | .refusedBusy => .refusedBusy
  | .refusedFull => .refusedFull

/-- The GRANTED records that a promotion makes on this station (R11). -/
def State.grantNotes (s : State) (r : Resource) (gs : List Grant) : List Note :=
  (gs.filter (fun g => g.station == s.own)).map (fun g => .granted r g.mode)

/-- The GRANTED records of this station in the removal of `v`: the holder pass and then the waiter pass, each in ascending
resource number (R11, R25). -/
def State.removalGrants (s : State) (v : Station) : List Note :=
  let grants := fun r : Resource => s.grantNotes r (removalRule s.replica.entries[r] v).2
  (allResources.filter (fun r => s.replica.entries[r].holds v)).flatMap grants
    ++ (allResources.filter (fun r => s.replica.entries[r].waits v)).flatMap grants

/-- No entry has `v` as both holder and waiter (R2), and `v` does not provide for itself (R38). -/
def State.lawfulFor (s : State) (v : Station) : Prop :=
  (∀ r : Resource, ¬(s.replica.entries[r].holds v = true ∧ s.replica.entries[r].waits v = true))
  ∧ s.replica.roster[v].providingFor ≠ some v

/-- Station `v`, not this one, has been removed from every entry, with its watches and an EVICT queued against it (R25,
R46). -/
structure RemovesStation (s t : State) (v : Station) : Prop where
  entries : ∀ r : Resource, t.replica.entries[r] = (removalRule s.replica.entries[r] v).1
  watches : ∀ r : Resource, s.replica.entries[r].holds v = true → ∀ w ∈ t.tu.expiry, w.r = r → w.holder ≠ v
  verdicts : ∀ i ∈ t.tu.verdicts, ∀ inc, i.verdict ≠ .evict v inc

/-- This station has entered FAULTED with cause `c` (R79): every request cancelled in queue order, then the STATION
record, the replica and what depends on it cleared, IRQ# asserted, every line inactive. -/
structure EntersFaulted (s t : State) (c : FaultCause) : Prop where
  station : t.sc.station = .faulted c
  dropped : t.sc.catchUp = [] ∧ t.sc.staged = none ∧ t.sc.control = [] ∧ t.sc.shadow = none ∧ t.sc.joinTimer = none
    ∧ t.sc.stallTimer = none
  replica : t.replica = Replica.cleared ∧ t.tu = TimerUnit.afterReset
  requests : t.requests = []
  notes : { t.nu with irq := s.nu.irq } = s.nu.arriveAll
    (s.requests.map (fun q => .done q.tag .cancelled q.r) ++ [.station (.faulted c) (.fault c)])
  permit : t.kp = { permit := .none, timer := none }
  outputs : t.nu.irq = true ∧ (∀ x : Fin 8, t.gou.active[x] = false) ∧ t.gou.maps = s.gou.maps
  frame : t = { s with
    sc := t.sc, replica := t.replica, tu := t.tu, requests := t.requests, nu := t.nu, kp := t.kp, gou := t.gou,
    lu := t.lu }

/-- A join attempt has failed, the replica being live or loaded, or not (R62): below the fourth failure the join's items
are emptied, JOIN is queued with the next number and nothing is told; the fourth enters FAULTED(JOIN_FAILED). -/
structure JoinFails (s t : State) (live : Bool) : Prop where
  retry : s.sc.attemptNo + 1 < 4 →
    t.sc = { s.sc with
      station := .joinWait, attemptNo := s.sc.attemptNo + 1, joinAccepted := false, memberHeard := false,
      lowerHeard := false, joinTimer := none, stallTimer := none, staged := none, catchUp := [], ownInc := 0,
      readyRequeue := 0, shadow := if live then none else s.sc.shadow,
      control := (if live then [] else s.sc.control.filter (fun k => !k.kind.isMembership))
        ++ [{ kind := .join, count := 0 }] }
    ∧ { t.nu with irq := s.nu.irq } = s.nu ∧ t.replica = (if live then Replica.cleared else s.replica)
    ∧ t.tu.presenceTimer = none ∧ t.requests = s.requests ∧ t.config = s.config ∧ t.tm = s.tm ∧ t.kp = s.kp
  last : 4 ≤ s.sc.attemptNo + 1 → t.sc.attemptNo = s.sc.attemptNo + 1 ∧ EntersFaulted s t .joinFailed

end Sys2Proof.Machine
end

