-- ==== Sys2Proof/Certificates/Slice0/Obligations.lean ====
section
/-! DEFINITION. The statements for the provers. `SettlesTo e t` says that `t` is `e` with RENEW offers, the
transmitter's IDLE or DEFER, the grant lines and IRQ# brought up to date and nothing else changed; a statement that
gives the next state as a record update of `s` is its own frame. -/

open Sys2Proof Sys2Proof.Machine

/-! ## The machine -/

/-- A step with a command in front of the queue is that command on the state with the rest of the queue (log 1). -/
def Obligations.StepTakesFrontCommand : Prop :=
  ∀ (c : Instr) (rest : List Instr) (s : State), step (s.setPending (c :: rest)) = exec c (s.setPending rest)

/-- With nothing waiting a millisecond passes (the model's choice, log 2): every running timer counts one, a backoff that
has begun counts down the bit times of the millisecond (R83, R93), and the events that fall due wait in the queue, each
once, in an order that is free (log 3). -/
def Obligations.EmptyQueuePassesOneMillisecond : Prop :=
  ∀ s : State, s.pending = [] → ∃ t, step s = .next t
    ∧ t = { s with
        tu := { s.tu with
          holds := s.tu.holds.map (fun h => if h.running then { h with elapsed := h.elapsed + 1 } else h)
          expiry := s.tu.expiry.map (fun w => { w with elapsed := w.elapsed + 1 })
          presence := s.tu.presence.map (fun w => { w with elapsed := w.elapsed + 1 })
          presenceTimer := s.tu.presenceTimer.map (· + 1) }
        sc := { s.sc with joinTimer := s.sc.joinTimer.map (· + 1), stallTimer := s.sc.stallTimer.map (· + 1) }
        lu := { s.lu with backoff :=
          if s.lu.tx = .backoff ∧ s.lu.backoffHeld = false then s.lu.backoff.map (· - s.bitsPerMs) else s.lu.backoff }
        kp := { s.kp with timer := s.kp.timer.map (· + 1) }
        nu := { s.nu with idle := s.nu.idle.advance }
        freeIndex := s.freeIndex + 1
        pending := t.pending }
    ∧ t.pending.Perm t.dueEvents

/-- Every command completes in every state: no fault, no refusal (R156; FAULTED is a station state, R79). -/
def Obligations.EveryCommandCompletes : Prop :=
  ∀ (c : Instr) (s : State), ∃ t, exec c s = .next t

/-- While the port can begin no transaction (a reset runs, CS# has not been seen high since, or RESET waits for CS# to
rise) a host command leaves everything as it is (R154, log 9). -/
def Obligations.ClosedPortTakesNoCommand : Prop :=
  ∀ (c : Instr) (s : State), isHostCommand c = true →
    ¬(s.power.phase = .running ∧ (s.port = .ready ∨ s.port = .noteOut)) → exec c s = .next s

/-! ## Resets -/

/-- The values after a reset of any kind: Timer Unit (R107), Timebase Monitor (R128), Keep Permit (R139), Notification
Unit (R178), Station Controller (R54), transmitter and receiver (R87, R94), replica (R4, R32, R49, R51), request queue
(R164). The command reset keeps the configuration record and the maps, the others lose them (R148, R162). The model's own
choices among these: no backoff time remaining and `presenceOffer` none (log 28), and the reset-cause record standing as it
was until the reset ends (log 18, and log 19 for power-on). A power-on reset that finds RESET# low or in its ending span goes on with it so, and no
hold time runs until VDD rises past the rising threshold (R196, R197). -/
def Obligations.EveryResetGivesResetValues : Prop :=
  ∀ (c : Instr) (s : State),
    (c = .commandReset ∧ s.power.phase = .running ∧ s.port = .resetTaken)
      ∨ c = .powerOnReset ∨ (c = .pinReset ∧ ∀ p, s.power.phase ≠ .powerOn p) →
    ∃ t, exec c s = .next t
      ∧ t.tu = { holds := [], expiry := [], presence := [], verdicts := [], presenceTimer := none,
                 presenceOffer := none, surrender := [] }
      ∧ t.tm = { timebase := .startup, goodCount := 0, recovered := false }
      ∧ t.kp = { permit := .none, timer := none }
      ∧ t.nu = { queue := [], dropped := 0, idle := .stopped, irq := false }
      ∧ t.sc = { station := .offline, attemptNo := 0, joinAccepted := false, memberHeard := false, lowerHeard := false,
                 joinTimer := none, staged := none, stallTimer := none, ownInc := 0, catchUp := [], control := [],
                 readyRequeue := 0, shadow := none }
      ∧ t.lu.tx = .idle ∧ t.lu.current = none ∧ t.lu.backoff = none ∧ t.lu.rx = .idle ∧ t.lu.vetoCount = 0
      ∧ t.lu.muted = false ∧ t.lu.clock = .internal
      ∧ (∀ r : Resource, t.replica.entries[r] = { mode := .free, gen := 0, holders := [], waiters := [] })
      ∧ (∀ v : Station, t.replica.roster[v] = { state := .absent, inc := 0, provider := none, providingFor := none })
      ∧ t.replica.tsn = 0 ∧ t.replica.mismatch = none
      ∧ t.requests = [] ∧ t.port = .waitHigh ∧ t.cause = s.cause ∧ t.pending = s.pending ∧ t.freeIndex = s.freeIndex
      ∧ (∀ x : Fin 8, t.gou.active[x] = false ∧ t.grantPin x ≠ .low) ∧ t.irqPin ≠ .low
      ∧ (c = .commandReset → t.config = s.config ∧ t.gou.maps = s.gou.maps ∧ t.power.phase = .command)
      ∧ (c ≠ .commandReset → t.config = none ∧ ∀ x : Fin 8, t.gou.maps[x] = none)
      ∧ (c = .powerOnReset → ∃ p, t.power.phase = .powerOn p ∧ p.holding = false ∧ p.pinLow = false
          ∧ (p.pinActive = true ↔ s.power.phase = .pin ∨ ∃ q, s.power.phase = .powerOn q ∧ q.pinActive = true))
      ∧ (c = .pinReset → t.power.phase = .pin)
      ∧ t.power.drivers = s.power.drivers

/-- READ_CAUSE, CLEAR_CAUSE and what the ends of the resets write into the reset-cause record, with what RESET# does in a
power-on reset (R160, R196, R197): one that is recognised low at any point of the hold time sets PIN when it has ended,
one that was high again before the hold time does not, nor does a 50 µs ending span that reaches into it. That COMMAND,
like the others, is written when the reset ends is the model's reading (log 18), that POWER_ON_RESET_END with no hold time
running changes nothing is its choice (log 5, 19), and so is that the bits of the cause byte that the spec does not name
are 0 (log 37). -/
def Obligations.ResetCauseRecord : Prop :=
  ∀ s : State,
    (s.portOpen = true → ∃ b : Byte, b.getLsbD 0 = s.cause.power ∧ b.getLsbD 1 = s.cause.pin
        ∧ b.getLsbD 2 = s.cause.command ∧ b.toNat < 8 ∧ exec .readCause s = .next (s.answered [0x00, b]))
    ∧ (s.portOpen = true → exec .clearCause s =
        .next (State.answered { s with cause := { power := false, pin := false, command := false } } [0x00]))
    ∧ (∀ p, s.power.phase = .powerOn p → p.holding = true → exec .powerOnResetEnd s =
        .next { s with power := { s.power with
                         phase := if p.pinLow = true ∧ p.pinActive = true then .pin else .running },
                       cause := { power := true, pin := decide (p.pinLow = true ∧ p.pinActive = false),
                                  command := false } })
    ∧ ((∀ p, s.power.phase = .powerOn p → p.holding = false) → exec .powerOnResetEnd s = .next s)
    ∧ (∀ p, s.power.phase = .powerOn p →
        exec .pinReset s = .next { s with power := { s.power with
          phase := .powerOn { p with pinActive := true, pinLow := decide (p.pinLow = true ∨ p.holding = true) } } })
    ∧ (∀ p, s.power.phase = .powerOn p → exec .pinResetEnd s =
        .next { s with power := { s.power with phase := .powerOn { p with pinActive := false } } })
    ∧ (∀ p, s.power.phase = .powerOn p → ∃ t, exec .powerOnReset s = .next t ∧ t.cause = s.cause
        ∧ t.power = { s.power with phase := .powerOn { p with holding := false, pinLow := false } })
    ∧ (s.power.phase = .pin → exec .pinResetEnd s =
        .next { s with power := { s.power with phase := .running }, cause := { s.cause with pin := true } })
    ∧ (s.power.phase = .command → exec .commandResetEnd s =
        .next { s with power := { s.power with phase := .running }, cause := { s.cause with command := true } })

/-- SUPPLY_DRIVE_THRESHOLD: past it the outputs are driven, high while a reset lasts; below it IRQ#, GNTx# and SDO are
at high impedance and the line driver is off, and the power-on reset is entered (R191 to R194, R197, log 19). Where the row
is the crossing of the power-on rising threshold, which is the model's choice (log 19), the hold time of a power-on reset
begins anew with RESET# as it is there, and a part that is not in power-on reset goes on (R197). -/
def Obligations.SupplyDriveThreshold : Prop :=
  ∀ (s : State) (pinLow : Bool),
    exec (.supplyDriveThreshold .driveRising) s = .next { s with power := { s.power with drivers := true } }
    ∧ (∃ t p, exec (.supplyDriveThreshold .driveFalling) s = .next t ∧ t.power.drivers = false
        ∧ t.power.phase = .powerOn p ∧ p.holding = false ∧ p.pinLow = false
        ∧ (p.pinActive = true ↔ s.power.phase = .pin ∨ ∃ q, s.power.phase = .powerOn q ∧ q.pinActive = true)
        ∧ t.config = none ∧ t.sc.station = .offline
        ∧ t.replica = Replica.cleared ∧ t.requests = [] ∧ t.cause = s.cause ∧ t.pending = s.pending)
    ∧ (∀ p, s.power.phase = .powerOn p → exec (.supplyDriveThreshold (.powerOnRising pinLow)) s =
        .next { s with power :=
          { drivers := true
            phase := .powerOn { holding := true, pinActive := decide (p.pinActive = true ∨ pinLow = true), pinLow } } })
    ∧ ((∀ p, s.power.phase ≠ .powerOn p) → exec (.supplyDriveThreshold (.powerOnRising pinLow)) s =
        .next { s with power := { s.power with drivers := true } })
    ∧ (s.power.drivers = false → s.irqPin = .highZ ∧ (∀ x, s.grantPin x = .highZ) ∧ s.lineDrive = .released
        ∧ ∀ cs, s.sdoDriven cs = false)
    ∧ (s.power.drivers = true → s.power.phase ≠ .running → s.irqPin = .high ∧ (∀ x, s.grantPin x = .high)
        ∧ ∀ cs, s.sdoDriven cs = false)

/-- RESET is answered OK and waits for CS# to rise; CS_HIGH_SEEN opens the port after a reset; a byte that names no
command is answered REFUSED_ARG; a transaction cut off before its command was complete leaves no status. None of them
changes anything else (R153, R154, R159). That UNKNOWN_COMMAND with a byte that does name a command is answered the same is the
model's choice (log 23), as is the empty response after a transaction cut off (log 10). -/
def Obligations.PortTransactions : Prop :=
  ∀ (s : State) (code : Byte),
    (s.portOpen = true → exec .reset s = .next { s with response := [0x00], port := .resetTaken })
    ∧ (s.portOpen = true → exec (.unknownCommand code) s = .next (s.answered [0x02]))
    ∧ (s.portOpen = true → exec .transactionAborted s = .next (s.answered []))
    ∧ (s.power.phase = .running → s.port = .waitHigh → exec .csHighSeen s = .next { s with port := .ready })

/-- The bytes that the host clocks in name the command and carry its arguments by the table of R203, bytes after them
being ignored and too few taking nothing; a byte outside the table is an unknown command (R153, R154, R156). SDO carries
00h until the command is taken, then status and response, then 00h, the most significant bit of a byte first, and is at
high impedance while CS# is high, in a reset and below the drive threshold (R154, R192). -/
def Obligations.SerialTransactionBytes : Prop :=
  (∀ (rest args : List Byte) (a b c : Byte),
    hostCommandOf (0x10 :: rest) = .readStatus ∧ hostCommandOf (0x11 :: rest) = .readCause
    ∧ hostCommandOf (0x12 :: rest) = .clearCause ∧ hostCommandOf (0x21 :: rest) = .readConfig
    ∧ hostCommandOf (0x30 :: rest) = .start ∧ hostCommandOf (0x31 :: rest) = .stop
    ∧ hostCommandOf (0x32 :: rest) = .restoreTimebase ∧ hostCommandOf (0x3F :: rest) = .reset
    ∧ hostCommandOf (0x43 :: rest) = .keep ∧ hostCommandOf (0x50 :: rest) = .readNote
    ∧ hostCommandOf (0x51 :: rest) = .noteCount
    ∧ hostCommandOf (0x40 :: a :: b :: c :: rest) = .claim a b c
    ∧ hostCommandOf (0x41 :: a :: rest) = .release a ∧ hostCommandOf (0x42 :: a :: rest) = .withdraw a
    ∧ hostCommandOf (0x60 :: a :: rest) = .queryEntry a ∧ hostCommandOf (0x61 :: a :: rest) = .queryRoster a
    ∧ hostCommandOf (0x62 :: a :: rest) = .queryRequest a
    ∧ (args.length = 17 → hostCommandOf (0x20 :: args ++ rest) = .writeConfig args)
    ∧ (args.length < 17 → hostCommandOf (0x20 :: args) = .transactionAborted)
    ∧ (args.length < 3 → hostCommandOf (0x40 :: args) = .transactionAborted)
    ∧ (∀ code ∈ ([0x41, 0x42, 0x60, 0x61, 0x62] : List Byte), hostCommandOf [code] = .transactionAborted)
    ∧ hostCommandOf [] = .transactionAborted
    ∧ (∀ code : Byte, code ∉ ([0x10, 0x11, 0x12, 0x20, 0x21, 0x30, 0x31, 0x32, 0x3F, 0x40, 0x41, 0x42, 0x43, 0x50, 0x51,
        0x60, 0x61, 0x62] : List Byte) → hostCommandOf (code :: rest) = .unknownCommand code))
  ∧ ∀ (s : State) (c : Instr) (i : Nat),
    (i < 1 + argumentBytes c → sdoByte (1 + argumentBytes c) s.response i = 0x00)
    ∧ (∀ b, s.response[i]? = some b → sdoByte (1 + argumentBytes c) s.response (1 + argumentBytes c + i) = b)
    ∧ (s.response.length ≤ i → sdoByte (1 + argumentBytes c) s.response (1 + argumentBytes c + i) = 0x00)
    ∧ (∀ k < 8, s.power = { phase := .running, drivers := true } → s.sdoPin true c (8 * i + k) =
        if (sdoByte (1 + argumentBytes c) s.response i).getLsbD (7 - k) then .high else .low)
    ∧ (∀ cs, cs = false ∨ s.power.phase ≠ .running ∨ s.power.drivers = false → s.sdoPin cs c i = .highZ)

/-! ## Reading commands -/

/-- READ_STATUS gives its 13 bytes and changes nothing else (R158, R203). -/
def Obligations.ReadStatusReports : Prop :=
  ∀ s : State, s.portOpen = true → ∃ lines : Byte, (∀ x : Fin 8, lines.getLsbD x.val = s.gou.active[x])
    ∧ exec .readStatus s = .next (s.answered
        [0x00, StationState.code s.sc.station, StationState.detail s.sc.station,
         if s.config = none then 0x00 else 0x01, TimebaseMonitor.code s.tm, Permit.code s.kp.permit,
         BitVec.ofNat 8 s.sc.attemptNo, BitVec.ofNat 8 s.sc.catchUp.length, lines,
         BitVec.ofNat 8 s.requests.length, BitVec.ofNat 8 s.nu.queue.length,
         s.replica.tsn.extractLsb' 8 8, s.replica.tsn.extractLsb' 0 8, s.sc.ownInc])

/-- NOTE_COUNT returns the record count and the dropped count and changes nothing else; READ_STATUS gives the same count
of records (R183). -/
def Obligations.NoteCountReadsOnly : Prop :=
  ∀ s : State, s.portOpen = true →
    exec .noteCount s = .next (s.answered [0x00, BitVec.ofNat 8 s.nu.queue.length, BitVec.ofNat 8 s.nu.dropped])
    ∧ ∃ bytes : List Byte, exec .readStatus s = .next (s.answered bytes)
        ∧ bytes[10]? = some (BitVec.ofNat 8 s.nu.queue.length)

/-- QUERY_ENTRY gives the entry and this station's own view of it, QUERY_ROSTER the roster entry, each with the TSN; a
resource above 63 and a station above 31 are refused (R174, R175, R203). -/
def Obligations.TableQueriesGiveEntries : Prop :=
  ∀ (s : State) (b : Byte), s.portOpen = true →
    (∀ r : Resource, b.toNat = r.val → ∃ lines : Byte,
      (∀ x : Fin 8, lines.getLsbD x.val = (s.gou.active[x] &&
        (match s.gou.maps[x] with | some m => m.r == r | none => false)))
      ∧ ∃ body : List Byte, exec (.queryEntry b) s = .next (s.answered (0x00 :: BitVec.ofNat 8 body.length :: body))
      ∧ body = [b, match s.replica.entries[r].mode with | .free => 0x00 | .shared => 0x01 | .exclusive => 0x02]
          ++ wordBytes s.replica.entries[r].gen
          ++ BitVec.ofNat 8 s.replica.entries[r].holders.length ::
             s.replica.entries[r].holders.flatMap (fun h => BitVec.ofNat 8 h.station.val :: wordBytes h.gen)
          ++ BitVec.ofNat 8 s.replica.entries[r].waiters.length ::
             s.replica.entries[r].waiters.flatMap (fun w =>
               [BitVec.ofNat 8 w.station.val, match w.mode with | .shared => 0x01 | .exclusive => 0x02])
          ++ wordBytes s.replica.tsn
          ++ [match s.surrenderMark r with | none => 0x00 | some .hold => 0x01 | some .wait => 0x02,
              match s.requests.find? (fun q => q.r == r) with | some q => BitVec.ofNat 8 q.tag.val | none => 0xFF,
              if s.lapsedMark r then 0x01 else 0x00, lines])
    ∧ (64 ≤ b.toNat → exec (.queryEntry b) s = .next (s.answered [0x02, 0x00]))
    ∧ (∀ v : Station, b.toNat = v.val → exec (.queryRoster b) s = .next (s.answered
      [0x00, 0x06, match s.replica.roster[v].state with | .absent => 0x00 | .joining => 0x01 | .member => 0x02,
       s.replica.roster[v].inc,
       match s.replica.roster[v].provider with | some x => BitVec.ofNat 8 x.val | none => 0xFF,
       match s.replica.roster[v].providingFor with | some x => BitVec.ofNat 8 x.val | none => 0xFF,
       s.replica.tsn.extractLsb' 8 8, s.replica.tsn.extractLsb' 0 8]))
    ∧ (32 ≤ b.toNat → exec (.queryRoster b) s = .next (s.answered [0x02, 0x00]))

/-- QUERY_REQUEST gives the record that holds the tag, EMPTY when none does, and refuses a tag above 15 (R176). -/
def Obligations.QueryRequestGivesRecord : Prop :=
  ∀ (s : State) (b : Byte), s.portOpen = true →
    (∀ q ∈ s.requests, b.toNat = q.tag.val → (s.requests.map Request.tag).Nodup →
      exec (.queryRequest b) s = .next (s.answered
        [0x00, 0x07, b, match q.kind with | .claim _ _ => 0x01 | .release => 0x02 | .withdraw => 0x03,
         BitVec.ofNat 8 q.r.val,
         match q.kind with | .claim .shared _ => 0x01 | .claim .exclusive _ => 0x02 | .release | .withdraw => 0x00,
         match q.kind with | .claim _ true => 0x01 | .claim _ false | .release | .withdraw => 0x00,
         match q.state with | .queued => 0x01 | .onAir => 0x02, BitVec.ofNat 8 q.count]))
    ∧ (b.toNat < 16 → (∀ q ∈ s.requests, b.toNat ≠ q.tag.val) →
        exec (.queryRequest b) s = .next (s.answered [0x0D, 0x00]))
    ∧ (16 ≤ b.toNat → exec (.queryRequest b) s = .next (s.answered [0x02, 0x00]))

/-! ## Configuration, START, STOP -/

/-- WRITE_CONFIG: 17 bytes that spell a record in range replace the record, with its digest, and the grant maps in
OFFLINE, and an idle timer that stands at the new Tn has reached it; in another state they are REFUSED_STATE; bytes that
spell none are REFUSED_ARG in any state (R157, R161 to R163, R187). -/
def Obligations.WriteConfigReplacesRecord : Prop :=
  ∀ s : State, s.portOpen = true →
    (∀ c : ConfigRecord, c.inRange → s.sc.station = .offline →
      ∃ t, exec (.writeConfig c.bytes) s = .next t
        ∧ SettlesTo (State.answered { s with
            config := some c, gou := { s.gou with maps := c.maps },
            nu := { s.nu with idle := match s.nu.idle with
              | .running n => if c.irqIdle ≤ n then .reached else .running n
              | .stopped => .stopped
              | .reached => .reached } } [0x00]) t)
    ∧ (∀ c : ConfigRecord, c.inRange → s.sc.station ≠ .offline →
        exec (.writeConfig c.bytes) s = .next (s.answered [0x01]))
    ∧ (∀ bytes : List Byte, bytes.length = 17 → (∀ c : ConfigRecord, c.inRange → c.bytes ≠ bytes) →
        exec (.writeConfig bytes) s = .next (s.answered [0x02]))

/-- READ_CONFIG returns the record and its digest, or NO_CONFIG and 19 bytes of 00h (R162); a record in range is read back
from its 17 bytes with every field (R161, R163, R203). -/
def Obligations.ReadConfigReturnsRecord : Prop :=
  (∀ s : State, s.portOpen = true →
    (∀ c, s.config = some c → exec .readConfig s = .next (s.answered
        (0x00 :: c.bytes ++ [c.digest.extractLsb' 8 8, c.digest.extractLsb' 0 8])))
    ∧ (s.config = none → exec .readConfig s = .next (s.answered (0x03 :: List.replicate 19 0x00))))
  ∧ ∀ c : ConfigRecord, c.inRange → c.bytes.length = 17 ∧ configRecordOf c.bytes = some c

/-- START in OFFLINE with a record and a timebase in REFERENCE makes a join start (R57, R58, R86, R99, R106); the
refusals change nothing (R58). That the transmitter, with the JOIN offered, stands in IDLE through the integration wait is
the model's choice (log 38). -/
def Obligations.StartMakesJoinStart : Prop :=
  ∀ s : State, s.portOpen = true →
    (s.sc.station = .offline → s.config ≠ none → s.tm.timebase = .reference →
      ∃ t, exec .start s = .next t
        ∧ SettlesTo (State.answered { s with
            replica := Replica.cleared, tu := TimerUnit.afterReset,
            sc := { s.sc with
              station := .joinWait, attemptNo := 0, ownInc := 0, readyRequeue := 0, joinAccepted := false,
              catchUp := [], staged := none, joinTimer := none, stallTimer := none, shadow := none,
              control := [{ kind := .join, count := 0 }] },
            lu := { (if s.lu.tx = .send ∨ s.lu.tx = .jam ∨ s.lu.tx = .veto then s.lu else s.lu.cleared) with
              vetoCount := 0, muted := false, integrating := true,
              current := s.lu.current.map (fun a => { a with withdrawn := true }) } } [0x00]) t)
    ∧ (s.sc.station ≠ .offline → exec .start s = .next (s.answered [0x01]))
    ∧ (s.sc.station = .offline → s.config = none → exec .start s = .next (s.answered [0x03]))
    ∧ (s.sc.station = .offline → s.config ≠ none → s.tm.timebase ≠ .reference →
        exec .start s = .next (s.answered [0x04]))

/-- STOP by station state (R73): its status, the state it leads to and the notification it gives. In MEMBER the PRESENCE
candidate goes with the presence timer, which is the model's reading (log 30). In MEMBER every request
completes CANCELLED in queue order before STATION(LEAVING, STOP); LEAVE is the one membership frame queued, the permit
goes to NONE, verdicts are withdrawn, own-hold records stop, the replica stays (R74, R112, R115, R125, R140, R172). A verdict
whose attempt has begun is not withdrawn: it stays in the queue, its watch's verdict state stands, and its attempt goes on
as it was (R115, R119). That a verdict in backoff is no such one is the model's reading (log 40). -/
def Obligations.StopByStationState : Prop :=
  ∀ s : State, s.portOpen = true →
    (s.sc.station = .offline ∨ (∃ x, s.sc.station = .leaving .stopping x) → exec .stop s = .next (s.answered [0x01]))
    ∧ (s.sc.station = .joinWait → s.sc.joinAccepted = false → ∃ t, exec .stop s = .next t
        ∧ t.response = [0x00] ∧ t.sc.station = .offline
        ∧ t.sc.control = s.sc.control.filter (fun c => !c.kind.isMembership)
        ∧ { t.nu with irq := s.nu.irq } = s.nu.arriveAll [.station .offline .stop]
        ∧ t.replica = s.replica ∧ t.requests = s.requests ∧ t.config = s.config ∧ t.tm = s.tm ∧ t.kp = s.kp)
    ∧ (∀ c, s.sc.station = .faulted c → ∃ t, exec .stop s = .next t
        ∧ t.response = [0x00] ∧ t.sc.station = .offline
        ∧ { t.nu with irq := s.nu.irq } = s.nu.arriveAll [.station .offline .stop]
        ∧ t.replica = s.replica ∧ t.requests = s.requests ∧ t.config = s.config ∧ t.tm = s.tm ∧ t.kp = s.kp)
    ∧ ((s.sc.station = .joinWait ∧ s.sc.joinAccepted = true) ∨ s.sc.station = .snapshot ∨ s.sc.station = .synced →
        ∃ t x, exec .stop s = .next t ∧ (x = .live ↔ s.sc.station = .synced)
        ∧ t.response = [0x00] ∧ t.sc.station = .leaving .stopping x
        ∧ t.sc.catchUp = [] ∧ t.sc.staged = none ∧ t.sc.joinTimer = none ∧ t.sc.stallTimer = none
        ∧ t.sc.control = s.sc.control.filter (fun c => !c.kind.isMembership) ++ [{ kind := .leave, count := 0 }]
        ∧ { t.nu with irq := s.nu.irq } = s.nu.arriveAll
            (s.requests.map (fun q => .done q.tag .cancelled q.r) ++ [.station (.leaving .stopping x) .stop])
        ∧ t.replica = s.replica ∧ t.config = s.config ∧ t.tm = s.tm)
    ∧ (∀ x, s.sc.station = .leaving .rejoin x → ∃ t, exec .stop s = .next t
        ∧ SettlesTo (State.answered { s with
            sc := { s.sc with station := .leaving .stopping x },
            nu := s.nu.arrive (.station (.leaving .stopping x) .stop) } [0x00]) t)
    ∧ (s.sc.station = .member →
      ∃ t, exec .stop s = .next t
        ∧ t.response = [0x00] ∧ t.port = .ready
        ∧ t.sc = { s.sc with
            station := .leaving .stopping .live, catchUp := [], staged := none, joinTimer := none, stallTimer := none,
            control := s.sc.control.filter (fun c => !c.kind.isMembership) ++ [{ kind := .leave, count := 0 }] }
        ∧ t.requests = []
        ∧ { t.nu with irq := s.nu.irq } = s.nu.arriveAll
            (s.requests.map (fun q => .done q.tag .cancelled q.r) ++ [.station (.leaving .stopping .live) .stop])
        ∧ t.kp = { permit := .none, timer := none }
        ∧ (∀ x : Fin 8, t.gou.active[x] = false) ∧ t.gou.maps = s.gou.maps
        ∧ t.tu = { s.tu with
            holds := t.tu.holds, presenceTimer := none, presenceOffer := none,
            verdicts := s.tu.verdicts.filter (fun i => s.verdictInAttempt i.verdict),
            expiry := s.tu.expiry.map (fun w =>
              { w with queued := w.queued && s.verdictInAttempt (.expire w.r w.holder w.gen) }),
            presence := s.tu.presence.map (fun w =>
              { w with queued := w.queued && s.verdictInAttempt (.evict w.station w.inc) }) }
        ∧ (∀ v, s.verdictInAttempt v = true ↔ (s.lu.tx = .send ∨ s.lu.tx = .jam ∨ s.lu.tx = .veto)
            ∧ ∃ a, s.lu.current = some a ∧ a.source = .verdict v)
        ∧ (∀ a v, s.lu.current = some a → a.source = .verdict v → t.lu.current = s.lu.current)
        ∧ t.tu.holds = s.tu.holds.map (fun h => t.withRenewal { h with running := false })
        ∧ t.replica = s.replica ∧ t.config = s.config ∧ t.tm = s.tm ∧ t.cause = s.cause ∧ t.power = s.power
        ∧ { t.lu with tx := s.lu.tx, current := s.lu.current } = s.lu
        ∧ t.pending = s.pending ∧ t.freeIndex = s.freeIndex)

/-! ## Requests -/

/-- A CLAIM that passes its checks is placed at the tail, QUEUED, with the lowest free tag, and answered OK with that
tag; one that fails is answered with the status of the first check it fails and FFh (R156, R157, R164, R165). -/
def Obligations.ClaimQueuesRequest : Prop :=
  ∀ (s : State) (rb mb wb : Byte), s.portOpen = true →
    (∀ r m w, resourceOf rb = some r → modeOf mb = some m → waitOf wb = some w → claimStatus s rb mb wb = 0x00 →
      ∃ (t : State) (tag : Fin 16), exec (.claim rb mb wb) s = .next t
        ∧ (∀ q ∈ s.requests, q.tag ≠ tag) ∧ (∀ u < tag, ∃ q ∈ s.requests, q.tag = u)
        ∧ SettlesTo (State.answered { s with requests := s.requests ++
            [{ tag := tag, kind := .claim m w, r := r, state := .queued, count := 0 }] }
            [0x00, BitVec.ofNat 8 tag.val]) t)
    ∧ (claimStatus s rb mb wb ≠ 0x00 →
        exec (.claim rb mb wb) s = .next (s.answered [claimStatus s rb mb wb, 0xFF]))

/-- A RELEASE and a WITHDRAW likewise (R166, R167); from a RELEASE's acceptance on, the grant lines mapped to the resource
are inactive and no RENEW of it is offered (R109, R148). -/
def Obligations.RemovalsQueueRequest : Prop :=
  ∀ (s : State) (rb : Byte), s.portOpen = true →
    (∀ r, resourceOf rb = some r → removalStatus s rb s.holdsOwn 0x08 = 0x00 →
      ∃ (t : State) (tag : Fin 16), exec (.release rb) s = .next t
        ∧ (∀ q ∈ s.requests, q.tag ≠ tag) ∧ (∀ u < tag, ∃ q ∈ s.requests, q.tag = u)
        ∧ SettlesTo (State.answered { s with requests := s.requests ++
            [{ tag := tag, kind := .release, r := r, state := .queued, count := 0 }] }
            [0x00, BitVec.ofNat 8 tag.val]) t
        ∧ (∀ (x : Fin 8) m, s.gou.maps[x] = some m → m.r = r → t.gou.active[x] = false)
        ∧ (∀ h ∈ t.tu.holds, h.r = r → h.offered = false))
    ∧ (removalStatus s rb s.holdsOwn 0x08 ≠ 0x00 →
        exec (.release rb) s = .next (s.answered [removalStatus s rb s.holdsOwn 0x08, 0xFF]))
    ∧ (∀ r, resourceOf rb = some r → removalStatus s rb s.waitsOwn 0x0A = 0x00 →
      ∃ (t : State) (tag : Fin 16), exec (.withdraw rb) s = .next t
        ∧ (∀ q ∈ s.requests, q.tag ≠ tag) ∧ (∀ u < tag, ∃ q ∈ s.requests, q.tag = u)
        ∧ SettlesTo (State.answered { s with requests := s.requests ++
            [{ tag := tag, kind := .withdraw, r := r, state := .queued, count := 0 }] }
            [0x00, BitVec.ofNat 8 tag.val]) t)
    ∧ (removalStatus s rb s.waitsOwn 0x0A ≠ 0x00 →
        exec (.withdraw rb) s = .next (s.answered [removalStatus s rb s.waitsOwn 0x0A, 0xFF]))

/-! ## Keep permit and timebase -/

/-- KEEP by its table (R142): refused without a record, with K = 0 or outside MEMBER; in EARLY the permit lapses; in
WINDOW the period starts anew; in LAPSED the permit is restored (R146). -/
def Obligations.KeepByPermitState : Prop :=
  ∀ s : State, s.portOpen = true →
    (s.config = none → exec .keep s = .next (s.answered [0x03]))
    ∧ ∀ c, s.config = some c →
      (c.keepPeriod = 0 → exec .keep s = .next (s.answered [0x0C]))
      ∧ (c.keepPeriod ≠ 0 → s.sc.station ≠ .member → exec .keep s = .next (s.answered [0x01]))
      ∧ (c.keepPeriod ≠ 0 → s.sc.station = .member → s.kp.permit = .early →
          ∃ t, exec .keep s = .next t ∧ t.response = [0x0B] ∧ t.port = .ready ∧ PermitLapses s t .early)
      ∧ (c.keepPeriod ≠ 0 → s.sc.station = .member → s.kp.permit = .window →
          ∃ t, exec .keep s = .next t
            ∧ SettlesTo (State.answered { s with kp := { permit := .early, timer := some 0 } } [0x00]) t)
      ∧ (c.keepPeriod ≠ 0 → s.sc.station = .member → (∃ x, s.kp.permit = .lapsed x) →
          ∃ t, exec .keep s = .next t
            ∧ SettlesTo (State.answered { s with
                kp := { permit := .early, timer := some 0 }, nu := s.nu.arrive (.permit .restored) } [0x00]) t)

/-- RESTORE_TIMEBASE by its table (R135): in DEGRADED with the recovered flag set the timebase returns to REFERENCE,
TIMEBASE(RESTORED) is told and every overdue verdict of a MEMBER is queued (R126). -/
def Obligations.RestoreTimebaseReturnsToReference : Prop :=
  ∀ s : State, s.portOpen = true →
    (s.tm.timebase ≠ .degraded → exec .restoreTimebase s = .next (s.answered [0x01]))
    ∧ (s.tm.timebase = .degraded → s.tm.recovered = false → exec .restoreTimebase s = .next (s.answered [0x04]))
    ∧ (s.tm.timebase = .degraded → s.tm.recovered = true → ∃ t, exec .restoreTimebase s = .next t
        ∧ t.response = [0x00] ∧ t.tm = { timebase := .reference, goodCount := 0, recovered := false }
        ∧ { t.nu with irq := s.nu.irq } = s.nu.arrive (.timebase .restored)
        ∧ (∃ more, t.tu.verdicts = s.tu.verdicts ++ more ∧ (s.sc.station ≠ .member → more = []))
        ∧ (s.sc.station = .member → ∀ w ∈ s.tu.expiry, w.queued = false → s.expiryMs ≤ w.elapsed →
            ∃ i ∈ t.tu.verdicts, i.verdict = .expire w.r w.holder w.gen)
        ∧ (s.sc.station = .member → ∀ w ∈ s.tu.presence, w.queued = false → s.evictionMs ≤ w.elapsed →
            ∃ i ∈ t.tu.verdicts, i.verdict = .evict w.station w.inc)
        ∧ t.tu.expiry.map (fun w => { w with queued := false }) = s.tu.expiry.map (fun w => { w with queued := false })
        ∧ t.tu.presence.map (fun w => { w with queued := false })
            = s.tu.presence.map (fun w => { w with queued := false })
        ∧ t.tu.holds = s.tu.holds.map t.withRenewal
        ∧ t = { s with
            response := t.response, port := .ready, tm := t.tm, nu := t.nu, gou := { s.gou with active := t.gou.active },
            tu := { s.tu with holds := t.tu.holds, verdicts := t.tu.verdicts, expiry := t.tu.expiry,
                              presence := t.tu.presence },
            lu := { s.lu with tx := t.lu.tx, current := t.lu.current } })

/-! ## Notifications -/

/-- READ_NOTE (R182, R177): an OVERFLOW record is placed first when records were dropped and there is room; the head goes
out and stays; an empty queue is answered EMPTY. -/
def Obligations.ReadNoteGivesHead : Prop :=
  ∀ s : State, s.portOpen = true →
    (s.nu.dropped = 0 ∨ 32 ≤ s.nu.queue.length → ∀ x rest, s.nu.queue = x :: rest →
      exec .readNote s = .next { s with response := 0x00 :: x.bytes, port := .noteOut })
    ∧ (s.nu.dropped = 0 → s.nu.queue = [] → exec .readNote s = .next (s.answered [0x0D, 0x00, 0x00, 0x00, 0x00]))
    ∧ (s.nu.dropped ≠ 0 → s.nu.queue.length < 32 → ∃ t x rest, exec .readNote s = .next t
        ∧ s.nu.queue ++ [.overflow s.nu.dropped] = x :: rest
        ∧ SettlesTo { s with
            response := 0x00 :: x.bytes, port := .noteOut,
            nu := { queue := s.nu.queue ++ [.overflow s.nu.dropped], dropped := 0, irq := s.nu.irq,
                    idle := if s.nu.queue = [] then .running 0 else s.nu.idle } } t)

/-- A record that arrives is appended while the queue holds fewer than 32, the idle timer starting from zero in an empty
queue; at 32 it is dropped and counted up to 255 (R180, R181). When the last byte of a READ_NOTE is out the head leaves
the queue; the idle timer restarts while records remain and stops with the last one (R182, R185). -/
def Obligations.NotesArriveAndLeave : Prop :=
  (∀ (s : State) (x : Note) (rest : List Note), s.power.phase = .running → s.port = .noteOut → s.nu.queue = x :: rest →
    ∃ t, exec .noteRecordRemoved s = .next t
      ∧ SettlesTo { s with port := .ready, nu := { s.nu with
          queue := rest, idle := if rest = [] then .stopped else .running 0 } } t)
  ∧ ∀ (n : NoteUnit) (x : Note),
    (n.queue.length < 32 → n.arrive x = { n with
      queue := n.queue ++ [x], idle := if n.queue = [] then .running 0 else n.idle })
    ∧ (32 ≤ n.queue.length → n.arrive x = { n with dropped := min 255 (n.dropped + 1) })

/-- The timers of the keep period and of the notification queue at their thresholds: at 50 x K in EARLY the window opens, at
100 x K in WINDOW the permit lapses with cause LATE (R141, R144); at Tn the idle timer holds the mark and, with a record
held, IRQ# is asserted while the queue holds a record (R185 to R187). A timer that stands lower has not reached its
threshold, and the row changes nothing (log 4). -/
def Obligations.PeriodTimersReached : Prop :=
  ∀ (s : State) (n : Nat),
    (s.kp = { permit := .early, timer := some n } → 50 * s.configField ConfigRecord.keepPeriod ≤ n →
      exec .keepWindowOpen s = .next { s with kp := { permit := .window, timer := some n } })
    ∧ (s.kp = { permit := .early, timer := some n } → n < 50 * s.configField ConfigRecord.keepPeriod →
      exec .keepWindowOpen s = .next s)
    ∧ (s.kp = { permit := .window, timer := some n } → 100 * s.configField ConfigRecord.keepPeriod ≤ n →
      ∃ t, exec .keepPeriodEnd s = .next t ∧ PermitLapses s t .late ∧ t.response = s.response ∧ t.port = s.port)
    ∧ (s.kp = { permit := .window, timer := some n } → n < 100 * s.configField ConfigRecord.keepPeriod →
      exec .keepPeriodEnd s = .next s)
    ∧ (∀ c, s.nu.idle = .running n → s.config = some c →
      (c.irqIdle ≤ n → ∃ t, exec .idleTimerReached s = .next t
        ∧ t = { s with nu := { s.nu with idle := .reached, irq := t.nu.irq } }
        ∧ (s.nu.queue ≠ [] → t.nu.irq = true) ∧ t.nu.irq = t.irqCondition)
      ∧ (n < c.irqIdle → exec .idleTimerReached s = .next s))

/-! ## Timebase -/

/-- The end of a measurement window in STARTUP and DEGRADED, and a good window in REFERENCE (R129, R131, R134, R138). That
the Line Unit takes REFCLK with the sixteenth good window, that is at the qualification itself, is the model's reading
(log 34). -/
def Obligations.WindowJudgement : Prop :=
  ∀ (s : State) (edges : Nat) (receiving : Bool), s.power.phase = .running →
    ((15680 ≤ edges ∧ edges ≤ 16320) →
      ((s.tm.timebase = .startup → s.tm.goodCount < 15 → ∃ t, exec (.measurementWindowEnd edges receiving) s = .next t
          ∧ SettlesTo { s with tm := { s.tm with goodCount := s.tm.goodCount + 1 } } t)
      ∧ (s.tm.timebase = .startup → 15 ≤ s.tm.goodCount → ∃ t, exec (.measurementWindowEnd edges receiving) s = .next t
          ∧ SettlesTo { s with
              tm := { timebase := .reference, goodCount := 0, recovered := false },
              lu := { s.lu with clock := .refclk }, nu := s.nu.arrive (.timebase .qualified) } t)
      ∧ (s.tm.timebase = .reference → ∃ t, exec (.measurementWindowEnd edges receiving) s = .next t ∧ SettlesTo s t)
      ∧ (s.tm.timebase = .degraded → s.tm.recovered = true →
          ∃ t, exec (.measurementWindowEnd edges receiving) s = .next t ∧ SettlesTo s t)
      ∧ (s.tm.timebase = .degraded → s.tm.recovered = false → s.tm.goodCount < 15 →
          ∃ t, exec (.measurementWindowEnd edges receiving) s = .next t
          ∧ SettlesTo { s with tm := { s.tm with goodCount := s.tm.goodCount + 1 } } t)
      ∧ (s.tm.timebase = .degraded → s.tm.recovered = false → 15 ≤ s.tm.goodCount →
          ∃ t, exec (.measurementWindowEnd edges receiving) s = .next t
          ∧ SettlesTo { s with
              tm := { timebase := .degraded, goodCount := 16, recovered := true },
              nu := s.nu.arrive (.timebase .recovered) } t)))
    ∧ (¬(15680 ≤ edges ∧ edges ≤ 16320) →
      ((s.tm.timebase = .startup → ∃ t, exec (.measurementWindowEnd edges receiving) s = .next t
          ∧ SettlesTo { s with tm := { s.tm with goodCount := 0 } } t)
      ∧ (s.tm.timebase = .degraded → s.tm.recovered = false →
          ∃ t, exec (.measurementWindowEnd edges receiving) s = .next t
          ∧ SettlesTo { s with tm := { s.tm with goodCount := 0 } } t)
      ∧ (s.tm.timebase = .degraded → s.tm.recovered = true →
          ∃ t, exec (.measurementWindowEnd edges receiving) s = .next t
          ∧ SettlesTo { s with
              tm := { timebase := .degraded, goodCount := 0, recovered := false },
              nu := s.nu.arrive (.timebase .failed) } t)))

/-- A bad window in REFERENCE, no attempt of this station being on the line (R105, R111, R120, R126, R132): DEGRADED,
TIMEBASE(FAILED) and then a LOST(LAPSED) for every hold at or past 3L/4, every verdict withdrawn, the reception in
progress marked to be vetoed without counting, in its veto slot at once. The row may itself tell of a reception begun
(the model's choice, log 20). -/
def Obligations.ReferenceFailureDegrades : Prop :=
  ∀ (s : State) (edges : Nat) (receiving : Bool) (rx : RxState), s.power.phase = .running → s.tm.timebase = .reference →
    ¬(15680 ≤ edges ∧ edges ≤ 16320) → s.lu.tx ≠ .send → s.lu.tx ≠ .jam → s.lu.tx ≠ .veto →
    rx = (if receiving = true ∧ s.listening = true ∧ s.lu.rx = .idle then .receive else s.lu.rx) →
    ∃ (t : State) (lapses : List OwnHold), exec (.measurementWindowEnd edges receiving) s = .next t
      ∧ lapses = s.tu.holds.filter (fun h => s.sc.station == .member && !h.lapsed
          && decide (75 * s.configField ConfigRecord.leaseTerm ≤ h.elapsed))
      ∧ t.tm = { timebase := .degraded, goodCount := 0, recovered := false }
      ∧ { t.nu with irq := s.nu.irq } =
          s.nu.arriveAll (.timebase .failed :: lapses.map (fun h => .lost h.r .lapsed))
      ∧ t.tu.verdicts = [] ∧ t.tu.expiry = s.tu.expiry.map (fun w => { w with queued := false })
      ∧ t.tu.presence = s.tu.presence.map (fun w => { w with queued := false })
      ∧ t.tu.holds = s.tu.holds.map (fun h => t.withRenewal
          (if lapses.any (fun x => x.r == h.r) then { h with lapsed := true, running := false } else h))
      ∧ (∀ h ∈ lapses, s.releasePending h.r = false → t.surrendering h.r = true)
      ∧ (∀ (x : Fin 8) m, s.gou.maps[x] = some m → (∃ h ∈ lapses, h.r = m.r) → t.gou.active[x] = false)
      ∧ t.lu.clock = .internal
      ∧ t.lu.rx = rx
      ∧ (rx ≠ .idle → t.lu.rxFailed = true ∧ t.lu.rxTimebase = true)
      ∧ (rx = .idle → t.lu.rxFailed = s.lu.rxFailed ∧ t.lu.rxTimebase = s.lu.rxTimebase)
      ∧ (s.lu.rx = .veto → s.power.drivers = true → t.lineDrive = .dominant)
      ∧ t.lu.vetoCount = s.lu.vetoCount
      ∧ t = { s with
          tm := t.tm, nu := t.nu, lu := t.lu, gou := { s.gou with active := t.gou.active },
          tu := { t.tu with presenceTimer := s.tu.presenceTimer, presenceOffer := s.tu.presenceOffer } }

/-- A bad window in REFERENCE with an attempt of this station on the line (R92, R93, R105, R132): cut off in SEND or VETO it
has failed; the transmitter backs off from the end of the frame's reception, or the frame is abandoned at the retry
limit, its record completing NOT_SENT after TIMEBASE(FAILED) and before the lapses (log 15). In JAM the attempt has failed
already and its count does not move again (log 13). The receiver is to veto the frame without counting. -/
def Obligations.ReferenceFailureCutsAttempt : Prop :=
  ∀ (s : State) (edges : Nat) (receiving : Bool) (lapses : List OwnHold),
    s.power.phase = .running → s.tm.timebase = .reference → ¬(15680 ≤ edges ∧ edges ≤ 16320) → s.lu.tx = .send ∨ s.lu.tx = .veto ∨ s.lu.tx = .jam →
    lapses = s.tu.holds.filter (fun h => s.sc.station == .member && !h.lapsed
      && decide (75 * s.configField ConfigRecord.leaseTerm ≤ h.elapsed)) →
    ∃ t, exec (.measurementWindowEnd edges receiving) s = .next t
      ∧ t.tm = { timebase := .degraded, goodCount := 0, recovered := false }
      ∧ t.lu.clock = .internal
      ∧ (t.sc.station.onLine = s.sc.station.onLine → t.lu.rxFailed = true ∧ t.lu.rxTimebase = true
          ∧ t.lu.rx = (if s.lu.rx = .idle then .receive else s.lu.rx))
      ∧ (∀ a, s.lu.tx ≠ .jam → s.lu.current = some a →
        (a.withdrawn = false → a.count + 1 < s.retryLimit →
          t.lu.tx = .backoff ∧ t.lu.current = none
          ∧ t.lu.backoff = some (64 * (s.own.val % 2 ^ min (a.count + 1) 5)) ∧ t.lu.backoffHeld = true
          ∧ t.lu.vetoCount = s.lu.vetoCount
          ∧ (∀ tag, a.source = .host tag → t.requests = s.requests.map (fun q =>
              if q.tag = tag then { q with count := a.count + 1 } else q))
          ∧ { t.nu with irq := s.nu.irq } =
              s.nu.arriveAll (.timebase .failed :: lapses.map (fun h => .lost h.r .lapsed)))
        ∧ (∀ (tag : Fin 16) (q : Request), a.withdrawn = false → s.retryLimit ≤ a.count + 1 → a.source = .host tag →
          s.requests.find? (fun x => x.tag == tag) = some q →
          (t.lu.tx = .idle ∨ t.lu.tx = .defer) ∧ t.lu.current = none ∧ t.lu.backoff = none
          ∧ t.requests = s.requests.filter (fun x => x.tag != tag)
          ∧ { t.nu with irq := s.nu.irq } = s.nu.arriveAll
              (.timebase .failed :: .done tag .notSent q.r :: lapses.map (fun h => .lost h.r .lapsed)))
        ∧ (a.withdrawn = true → (t.lu.tx = .idle ∨ t.lu.tx = .defer) ∧ t.lu.current = none ∧ t.lu.backoff = none
          ∧ t.requests = s.requests
          ∧ { t.nu with irq := s.nu.irq } =
              s.nu.arriveAll (.timebase .failed :: lapses.map (fun h => .lost h.r .lapsed))))
      ∧ (s.lu.tx = .jam →
          t.lu.backoff = s.lu.backoff ∧ t.lu.vetoCount = s.lu.vetoCount ∧ t.requests = s.requests
          ∧ (s.lu.backoff ≠ none → t.lu.tx = .backoff ∧ t.lu.backoffHeld = true)
          ∧ (s.lu.backoff = none → t.lu.tx = .idle ∨ t.lu.tx = .defer)
          ∧ { t.nu with irq := s.nu.irq } =
              s.nu.arriveAll (.timebase .failed :: lapses.map (fun h => .lost h.r .lapsed)))

/-! ## The line -/

/-- LINE_UNIT_TAKES_REFCLK at a quiet point (R105), INTEGRATION_WAIT_END (R86), JAM_END (R89, R94) and BACKOFF_END
(R93). In SEND, JAM_END changes nothing: the frame is followed on to its end mark (log 35). -/
def Obligations.LineUnitEvents : Prop :=
  ∀ s : State,
    (s.tm.timebase = .reference → s.lu.clock = .internal → s.lu.rx = .idle →
      s.lu.tx = .idle ∨ s.lu.tx = .defer ∨ s.lu.tx = .backoff →
      exec .lineUnitTakesRefclk s = .next { s with lu := { s.lu with clock := .refclk } })
    ∧ (s.lu.integrating = true → s.lu.tx ≠ .send → s.lu.tx ≠ .jam → s.lu.tx ≠ .veto →
        ∃ t, exec .integrationWaitEnd s = .next t
        ∧ SettlesTo { s with lu := { s.lu.cleared with integrating := false } } t)
    ∧ (∀ n, s.lu.tx = .jam → s.lu.backoff = some n → ∃ t, exec .jamEnd s = .next t
        ∧ SettlesTo { s with lu := { s.lu.cleared with tx := .backoff } } t)
    ∧ (s.lu.tx = .jam → s.lu.backoff = none → ∃ t, exec .jamEnd s = .next t
        ∧ SettlesTo { s with lu := { s.lu.cleared with tx := .idle } } t)
    ∧ (s.lu.tx = .idle ∨ s.lu.tx = .defer ∨ s.lu.tx = .backoff → ∃ t, exec .jamEnd s = .next t
        ∧ SettlesTo { s with lu := s.lu.cleared } t)
    ∧ (s.lu.tx = .send → exec .jamEnd s = .next s)
    ∧ (s.lu.tx = .backoff → s.lu.backoffHeld = false → ∃ t, exec .backoffEnd s = .next t
        ∧ SettlesTo { s with lu := { s.lu with tx := .idle, backoff := none } } t)

/-- ATTEMPT_START in DEFER, or in BACKOFF with a wait of zero slots that has begun (log 32), while the receiver is IDLE
(R88): the first candidate, if its check of R104 holds, is sent with a header written from current state (R55, R103), its
host record becoming ON_AIR (R168); with no candidate the transmitter is IDLE. A candidate whose check fails is withdrawn
and its source told: a RENEW goes back to idle, a verdict ends, a resource leaves the surrender set, a host request
completes NOT_HOLDER or NOT_WAITING without being sent, a PRESENCE is no longer offered; and the same attempt start goes on
as it does from the state `u` that this leaves, with the next candidate (R102, R104, R109, R116, R119, R124, R169). With
the receiver not IDLE, because another station's frame has begun or the line is held DOMINANT, and in a backoff that has
not begun, no attempt starts and nothing changes (R86, R88, R93). -/
def Obligations.AttemptStartSendsFirstCandidate : Prop :=
  ∀ s : State,
    (s.lu.rx ≠ .idle ∨ s.listening = false ∨ (s.lu.tx = .backoff ∧ (s.lu.backoffHeld = true ∨ s.lu.backoff ≠ some 0)) →
      exec .attemptStart s = .next s)
    ∧ (s.listening = true → s.lu.rx = .idle →
      s.lu.tx = .defer ∨ (s.lu.tx = .backoff ∧ s.lu.backoff = some 0 ∧ s.lu.backoffHeld = false) →
    (∀ c rest, s.candidates = c :: rest → s.mayBeSent c.source → ∃ (t : State) (f : Frame),
      exec .attemptStart s = .next t
      ∧ f = { role := (match s.sc.station with
                | .member => .member
                | .leaving _ _ => if s.replica.roster[s.own].state = .member then .member else .joiner
                | _ => .joiner),
              sender := s.own, inc := s.sc.ownInc, baseTsn := s.replica.tsn, body := c.body }
      ∧ SettlesTo { s with
          requests := (match c.source with
            | .host tag => s.requests.map (fun q => if q.tag = tag then { q with state := .onAir } else q)
            | _ => s.requests),
          lu := { s.lu.cleared with
            tx := .send, backoff := none, rx := .receive, rxFrame := some f,
            current := some { frame := f, source := c.source, count := c.count, withdrawn := false } } } t)
    ∧ (s.candidates = [] → ∃ t, exec .attemptStart s = .next t
        ∧ SettlesTo { s with lu := { s.lu with tx := .idle, backoff := none } } t)
    ∧ (∀ c rest, s.candidates = c :: rest → ¬ s.mayBeSent c.source → ∃ (t u : State), exec .attemptStart s = .next t
        ∧ exec .attemptStart u = .next t
        ∧ (∀ r, c.source = .renew r → u = { s with tu := { s.tu with
            holds := s.tu.holds.map (fun h => if h.r = r then { h with renewal := .idle } else h) } })
        ∧ (∀ r h g, c.source = .verdict (.expire r h g) → u = { s with tu := { s.tu with
            verdicts := s.tu.verdicts.filter (fun i => i.verdict != .expire r h g)
            expiry := s.tu.expiry.map (fun w =>
              if w.r = r ∧ w.holder = h ∧ w.gen = g then { w with queued := false } else w) } })
        ∧ (∀ v i, c.source = .verdict (.evict v i) → u = { s with tu := { s.tu with
            verdicts := s.tu.verdicts.filter (fun x => x.verdict != .evict v i)
            presence := s.tu.presence.map (fun w =>
              if w.station = v ∧ w.inc = i then { w with queued := false } else w) } })
        ∧ (∀ r, c.source = .surrender r → u = { s with
            tu := { s.tu with surrender := s.tu.surrender.filter (fun m => m.r != r) }
            lu := { s.lu with current := s.lu.current.map (fun a =>
              if a.source = .surrender r then { a with withdrawn := true } else a) } })
        ∧ (∀ tag q, c.source = .host tag → s.requests.find? (fun x => x.tag == tag) = some q → u = { s with
            requests := s.requests.filter (fun x => x.tag != tag)
            nu := s.nu.arrive (.done tag (if q.kind = .withdraw then .notWaiting else .notHolder) q.r) })
        ∧ (c.source = .presence → u = { s with tu := { s.tu with presenceOffer := none } }))
    ∧ (∀ q, s.requests = [q] → q.kind = .release → q.state = .queued → s.holdsOwn q.r = false →
        s.candidates = [q.candidateOf] → ∃ t, exec .attemptStart s = .next t
        ∧ SettlesTo { s with
            requests := [], nu := s.nu.arrive (.done q.tag .notHolder q.r),
            lu := { s.lu with tx := .idle, backoff := none } } t))

/-- A failed attempt below the retry limit, vetoed or met by another transmitter (R82, R89, R91, R92, R93): its count goes
up and stays with its source, and the transmitter waits k x 64 bit times, k being the station number modulo 2 to the
smaller of the count and 5; after a collision the jam comes first. Of queued control frames of one kind the first alone
takes the count (R56), and a RENEW keeps it while its conditions hold (R109). Once the contention window has been read
without a mismatch, COLLISION changes nothing (R90). A vetoed frame of another station is discarded. -/
def Obligations.FailedAttemptBacksOff : Prop :=
  ∀ s : State,
    (∀ (a : Attempt) (c : Instr) (l : LineUnit), s.fails a c l → a.withdrawn = false → a.count + 1 < s.retryLimit →
      ∃ t, exec c s = .next t
        ∧ SettlesTo { s.setCount a.source (a.count + 1) with
            lu := { l with
              tx := if l.tx = .jam then .jam else .backoff
              backoff := some (64 * (s.own.val % 2 ^ min (a.count + 1) 5)) } } t
        ∧ (∀ tag, a.source = .host tag → t.requests = s.requests.map (fun q =>
            if q.tag = tag then { q with count := a.count + 1 } else q))
        ∧ (∀ r, a.source = .renew r → t.tu.holds = s.tu.holds.map (fun h => t.withRenewal (if h.r = r then
            (match h.renewal with
              | .candidate _ => { h with renewal := .candidate (a.count + 1) }
              | .idle | .barred => h) else h)))
        ∧ (∀ k i before after, a.source = .control k → s.sc.control = before ++ i :: after → i.kind = k →
            (∀ j ∈ before, j.kind ≠ k) → t.sc.control = before ++ { i with count := a.count + 1 } :: after))
    ∧ (∀ a : Attempt, s.lu.current = some a → s.lu.tx = .send → 24 ≤ s.lu.rxRead.length →
        ¬ meetsAnother a.frame s.lu.rxRead → exec .collision s = .next s)
    ∧ (s.lu.tx = .idle ∨ s.lu.tx = .defer ∨ s.lu.tx = .backoff → ∃ t, exec .frameVetoed s = .next t
        ∧ SettlesTo { s with lu := s.lu.cleared } t)

/-- A failed attempt of a host request at the retry limit (R92, R98, R171): the record completes NOT_SENT without backoff;
while the permit is LAPSED a RELEASE of a resource still held, or a WITHDRAW of one still waited on, puts it in the
surrender set (R145). A frame withdrawn meanwhile leaves without a report (R92). -/
def Obligations.RetryLimitAbandonsRequest : Prop :=
  ∀ (s : State) (a : Attempt) (c : Instr) (l : LineUnit), s.fails a c l →
    (a.withdrawn = true → ∃ t, exec c s = .next t ∧ SettlesTo { s with lu := l } t)
    ∧ (∀ (tag : Fin 16) (q : Request), a.withdrawn = false → s.retryLimit ≤ a.count + 1 → a.source = .host tag →
        s.requests.find? (fun x => x.tag == tag) = some q →
        ∃ t, exec c s = .next t
          ∧ SettlesTo { s with
              requests := s.requests.filter (fun x => x.tag != tag)
              nu := s.nu.arrive (.done tag .notSent q.r)
              lu := l
              tu := { s.tu with surrender :=
                if s.kp.permit.isLapsed ∧ ¬ s.surrendering q.r ∧ q.kind = .release ∧ s.holdsOwn q.r then
                  insertSurrender { r := q.r, mark := .hold, count := 0 } s.tu.surrender
                else if s.kp.permit.isLapsed ∧ ¬ s.surrendering q.r ∧ q.kind = .withdraw ∧ s.waitsOwn q.r then
                  insertSurrender { r := q.r, mark := .wait, count := 0 } s.tu.surrender
                else s.tu.surrender } } t)

/-- The other frames at the retry limit (R92, R98), each told to its source and without backoff: a RENEW, a surrender frame
and a PRESENCE are offered again with count 0 (R110, R117, R123); a segment is offered again three times and then given
up (R71); a READY is queued again three times (R68); a JOIN_REFUSE is dropped (R35); a verdict is queued again while its
watch stands at or past its threshold (R116, R119). -/
def Obligations.RetryLimitAbandonsOtherFrames : Prop :=
  ∀ (s : State) (a : Attempt) (c : Instr) (l : LineUnit), s.fails a c l → a.withdrawn = false →
    s.retryLimit ≤ a.count + 1 →
    (∀ r, a.source = .renew r → ∃ t, exec c s = .next t
        ∧ SettlesTo { s with
            lu := l
            tu := { s.tu with holds := s.tu.holds.map (fun h => if h.r = r then
              (match h.renewal with
                | .candidate _ => { h with renewal := .idle }
                | .idle | .barred => h) else h) } } t
        ∧ ∀ h ∈ t.tu.holds, h.r = r → h.renewal = .idle ∨ h.renewal = .candidate 0 ∨ h.renewal = .barred)
    ∧ (∀ r, a.source = .surrender r → ∃ t, exec c s = .next t
        ∧ SettlesTo { s with
            lu := l
            tu := { s.tu with surrender := s.tu.surrender.map (fun m => if m.r = r then { m with count := 0 } else m) } } t)
    ∧ (a.source = .presence → ∃ t, exec c s = .next t
        ∧ SettlesTo { s with lu := l, tu := { s.tu with presenceOffer := s.tu.presenceOffer.map (fun _ => 0) } } t)
    ∧ (∀ i x, a.source = .segment i → s.sc.shadow = some x → ∃ t, exec c s = .next t
        ∧ SettlesTo { s with
            lu := l
            sc := { s.sc with shadow := some { x with
              count := 0
              requeue := if x.requeue < 3 then x.requeue + 1 else x.requeue
              givenUp := if x.requeue < 3 then x.givenUp else true } } } t)
    ∧ (∀ v n, a.source = .control (.joinRefuse v n) → ∃ t, exec c s = .next t
        ∧ SettlesTo { s with
            lu := l, sc := { s.sc with control := s.sc.control.eraseP (fun k => k.kind == .joinRefuse v n) } } t)
    ∧ (a.source = .control .ready → s.sc.station = .synced → s.sc.readyRequeue < 3 → ∃ t, exec c s = .next t
        ∧ SettlesTo { s with
            lu := l
            sc := { s.sc with
              readyRequeue := s.sc.readyRequeue + 1
              control := s.sc.control.filter (fun k => !k.kind.isMembership) ++ [{ kind := .ready, count := 0 }] } } t)
    ∧ (∀ w ∈ s.tu.expiry, (∀ w' ∈ s.tu.expiry, w'.r = w.r → w'.holder = w.holder → w' = w) →
        a.source = .verdict (.expire w.r w.holder w.gen) → ∃ (t : State) (again : Bool), exec c s = .next t
        ∧ again = (s.sc.station == .member && s.tm.timebase != .degraded && decide (s.expiryMs ≤ w.elapsed))
        ∧ SettlesTo { s with
            lu := l
            tu := { s.tu with
              verdicts := s.tu.verdicts.filter (fun i => i.verdict != .expire w.r w.holder w.gen)
                ++ (if again then [{ verdict := .expire w.r w.holder w.gen, count := 0 }] else [])
              expiry := s.tu.expiry.map (fun x =>
                if x.r = w.r ∧ x.holder = w.holder then { x with queued := again } else x) } } t)
    ∧ (∀ w ∈ s.tu.presence, (∀ w' ∈ s.tu.presence, w'.station = w.station → w' = w) →
        a.source = .verdict (.evict w.station w.inc) → ∃ (t : State) (again : Bool), exec c s = .next t
        ∧ again = (s.sc.station == .member && s.tm.timebase != .degraded && decide (s.evictionMs ≤ w.elapsed))
        ∧ SettlesTo { s with
            lu := l
            tu := { s.tu with
              verdicts := s.tu.verdicts.filter (fun i => i.verdict != .evict w.station w.inc)
                ++ (if again then [{ verdict := .evict w.station w.inc, count := 0 }] else [])
              presence := s.tu.presence.map (fun x =>
                if x.station = w.station then { x with queued := again } else x) } } t)

/-- What the receiver makes of a reception (R91, R94, R96, R99, R105): at the end mark of one that failed it drives the veto
slot and counts it; failed on account of the timebase, it is vetoed and not counted; a collision is not vetoed. The row
RECEPTION_VETO also carries a reception still running, which puts the receiver in RECEIVE, and one found good, whose slot
receiver and transmitter watch (the model's choice, log 20). An own frame with a run of 16 DOMINANT bit times past its
contention window is vetoed (the model's choice between R90 and R96, log 35). In JAM and in a veto slot no reception runs
(log 5); a sending station that meets another one in these bit times jams instead, as FailedAttemptBacksOff says. -/
def Obligations.ReceiverFollowsReception : Prop :=
  ∀ (s : State) (readings : List BitReading),
    (∀ a, s.lu.current = some a → s.lu.tx = .send → ¬ meetsAnother a.frame readings) →
    (s.listening = true ∨ s.lu.tx = .send ∨ s.lu.rx = .receive → s.lu.tx ≠ .jam → s.lu.rx ≠ .veto →
      (endMarkRead readings = true → judge readings = .failed ∨ (judge readings = .collision ∧ s.lu.tx = .send) →
        s.lu.rxTimebase = false → s.lu.vetoCount + 1 < 32 →
        ∃ t, exec (.receptionVeto readings) s = .next t
          ∧ SettlesTo { s with lu := { s.lu with
              rx := .veto, rxRead := readings, rxFailed := true, rxDominant := longestDominant readings 0 0,
              vetoCount := s.lu.vetoCount + 1, tx := if s.lu.tx = .send then .veto else s.lu.tx } } t)
      ∧ (endMarkRead readings = true → judge readings ≠ .collision → s.lu.rxFailed = true → s.lu.rxTimebase = true →
        ∃ t, exec (.receptionVeto readings) s = .next t
          ∧ SettlesTo { s with lu := { s.lu with
              rx := .veto, rxRead := readings, rxDominant := longestDominant readings 0 0,
              tx := if s.lu.tx = .send then .veto else s.lu.tx } } t)
      ∧ (∀ f, judge readings = .good f → s.lu.rxFailed = false →
        ∃ t, exec (.receptionVeto readings) s = .next t
          ∧ SettlesTo { s with lu := { s.lu with
              rx := .veto, rxFrame := some f, rxRead := readings, rxDominant := longestDominant readings 0 0,
              tx := if s.lu.tx = .send then .veto else s.lu.tx } } t)
      ∧ (judge readings = .collision → s.lu.tx ≠ .send →
        ∃ t, exec (.receptionVeto readings) s = .next t
          ∧ SettlesTo { s with lu := { s.lu with
              rx := .receive, rxRead := readings, rxFailed := true, rxDominant := longestDominant readings 0 0 } } t)
      ∧ (endMarkRead readings = false →
        ∃ t, exec (.receptionVeto readings) s = .next t
          ∧ SettlesTo { s with lu := { s.lu with
              rx := .receive, rxRead := readings, rxDominant := longestDominant readings 0 0,
              rxFailed := s.lu.rxFailed || foundBad readings || decide (16 ≤ longestDominant readings 0 0) } } t))
    ∧ (s.lu.tx = .jam ∨ s.lu.rx = .veto → exec (.receptionVeto readings) s = .next s)

/-- The three ways into FAULTED that the line shows (R63, R79, R99, R100): an accepted frame with this station's number
that it did not send, a JOIN_REFUSE for the current attempt, and the 32nd veto in a row, of another station's frame or of
its own below the retry limit. That the veto's step holds the end of its slot, and so the fault, is the model's reading of
R99 and 95_what_each_step_holds.md (log 12). -/
def Obligations.LineFaultsTheStation : Prop :=
  ∀ s : State,
    (∀ f : Frame, s.hears f → f.sender = s.own → ∃ t, exec (.frameAccepted (.foreign f)) s = .next t
        ∧ EntersFaulted s t .duplicate)
    ∧ (∀ (f : Frame) (attempt : Fin 4), s.hears f → f.sender ≠ s.own →
        (s.sc.station = .joinWait ∧ s.sc.joinAccepted = true) ∨ s.sc.station = .snapshot →
        f.body = .joinRefuse s.own attempt → attempt.val = s.sc.attemptNo →
        ∃ t, exec (.frameAccepted (.foreign f)) s = .next t ∧ EntersFaulted s t .refusedConfig)
    ∧ (∀ readings, s.listening = true → s.lu.rx ≠ .veto → endMarkRead readings = true →
        (s.lu.tx ≠ .send ∧ s.lu.tx ≠ .jam ∧ s.lu.tx ≠ .veto)
          ∨ (s.lu.tx = .send ∧ ∃ a, s.lu.current = some a ∧ ¬ meetsAnother a.frame readings
              ∧ (a.withdrawn = true ∨ a.count + 1 < s.retryLimit)) →
        judge readings = .failed → s.lu.rxTimebase = false → 32 ≤ s.lu.vetoCount + 1 →
        ∃ t, exec (.receptionVeto readings) s = .next t ∧ EntersFaulted s t .receiverMuted ∧ t.lu.muted = true
          ∧ t.lu.tx = .idle ∧ t.lu.rx = .idle)

/-- The receiver reads back the frame that a transmitter sent, bit for bit: preamble, Manchester-coded bytes, CRC and
end mark are judged good and give the same frame, for every well-formed frame (R82 to R85, R95, R200 to R202). Entries
of a segment that fill all their places are among them. -/
def Obligations.ReceiverReadsSentFrame : Prop :=
  ∀ f : Frame, f.wf = true → judge (Frame.readings f) = .good f

/-! ## Accepted frames -/

/-- A PRESENCE of another station restarts the presence watch of that incarnation and withdraws an EVICT queued against
it; it clears the veto count and changes no table (R97, R99, R118, R119). -/
def Obligations.AcceptedPresenceRestartsWatch : Prop :=
  ∀ (s : State) (f : Frame), s.hears f → f.sender ≠ s.own → f.body = .presence →
    s.sc.station = .member ∨ s.sc.station = .synced ∨ (∃ i, s.sc.station = .leaving i .live) →
    ∃ (t : State) (heard : Bool), exec (.frameAccepted (.foreign f)) s = .next t
      ∧ heard = s.tu.presence.any (fun w => w.station == f.sender && w.inc == f.inc)
      ∧ t.tu = { s.tu with
          holds := t.tu.holds
          presence := if heard then s.tu.presence.map (fun w =>
            if w.station = f.sender then { w with elapsed := 0, queued := false } else w) else s.tu.presence
          verdicts := if heard then s.tu.verdicts.filter (fun i => match i.verdict with
            | .evict v _ => v != f.sender
            | .expire _ _ _ => true) else s.tu.verdicts }
      ∧ t.tu.holds = s.tu.holds.map t.withRenewal
      ∧ { t.lu with tx := s.lu.tx, current := s.lu.current } = { s.lu.cleared with vetoCount := 0 }
      ∧ t = { s with tu := t.tu, lu := t.lu, gou := { s.gou with active := t.gou.active },
                     nu := { s.nu with irq := t.nu.irq } }

/-- While the replica is live (SYNCED, MEMBER, LEAVING with a live replica: R6, R75) a table frame of another station, in
step with this station's TSN, acts on the one entry it names as R12 to R22 say when
its sender is a valid actor; a stray leaves every entry as it was (R7). The TSN advances by one; this station is told of
the loss of its own hold and then of its own grants; requests, roster and the rest stand (R6, R11, R23, R49, R51). In the
Timer Unit the expiry watches, the own-hold record, the verdicts and the surrender set follow the slots of that entry
that are removed, renewed and created (R28, R108, R113, R115, R122, R124), and the sender is heard (R118, R119); no other
resource's change. There the entry is lawful (R1, R2). That a hold which a promotion opens for this station in LEAVING
counts its time, though renewal has stopped, is the model's reading (log 22). -/
def Obligations.AcceptedTableFrameActs : Prop :=
  ∀ (s : State) (f : Frame) (r : Resource) (act : Entry × List Grant) (c : SlotChanges) (valid heard : Bool),
    s.hears f → f.sender ≠ s.own →
    s.sc.station.live = true → tableResource f.body = some r → (f.role = .member → f.baseTsn = s.replica.tsn) →
    valid = (f.role == .member && s.replica.roster[f.sender].state == .member
      && f.inc == s.replica.roster[f.sender].inc) →
    act = (if valid then tableRule s.replica.entries[r] f.sender f.body else (s.replica.entries[r], [])) →
    c = (if valid then slotChanges s.replica.entries[r] f.sender f.body
      else { removed := none, renewed := none, created := [] }) →
    heard = s.tu.presence.any (fun w => w.station == f.sender && w.inc == f.inc) →
    ∃ t, exec (.frameAccepted (.foreign f)) s = .next t
      ∧ t.replica = { s.replica with
          entries := s.replica.entries.set r.val act.1
          tsn := s.replica.tsn + 1
          mismatch := if f.role = .member then none else s.replica.mismatch }
      ∧ { t.nu with irq := s.nu.irq } = s.nu.arriveAll
          ((match f.body with
            | .expire _ h g => if valid = true ∧ h = s.own ∧ s.replica.entries[r].holdsAt h g = true
                ∧ s.lapsedMark r = false then [.lost r .expired] else []
            | _ => [])
          ++ s.grantNotes r act.2)
      ∧ t.sc = { s.sc with ownInc := s.replica.roster[s.own].inc }
      ∧ t.requests = s.requests ∧ t.config = s.config ∧ t.tm = s.tm ∧ t.kp = s.kp ∧ t.cause = s.cause
      ∧ t.power = s.power ∧ t.gou.maps = s.gou.maps ∧ t.port = s.port ∧ t.response = s.response
      ∧ t.tu.holds.filter (fun h => h.r != r) = (s.tu.holds.filter (fun h => h.r != r)).map t.withRenewal
      ∧ t.tu.expiry.filter (fun w => w.r != r) = s.tu.expiry.filter (fun w => w.r != r)
      ∧ t.tu.surrender.filter (fun m => m.r != r) = s.tu.surrender.filter (fun m => m.r != r)
      ∧ { t.lu with tx := s.lu.tx, current := s.lu.current } = { s.lu.cleared with vetoCount := 0 }
      ∧ (s.replica.entries[r].consistent = true → t.tu = { s.tu with
          holds := (holdsAfter s.tu.holds s.own r c).map t.withRenewal
          expiry := expiryAfter s.tu.expiry s.own r c (s.replica.entries[r].gen + 1)
          presence := if heard then s.tu.presence.map (fun w =>
            if w.station = f.sender then { w with elapsed := 0, queued := false } else w) else s.tu.presence
          verdicts := s.tu.verdicts.filter (fun i => match i.verdict with
            | .evict v _ => !(heard && v == f.sender)
            | .expire r' v _ => !(r' == r && v != s.own && (c.removed == some v || c.renewed == some v)))
          surrender := surrenderAfter s.tu.surrender s.own r c s.kp.permit.isLapsed })

/-- An own CLAIM accepted while the replica is live (R6 to R8, R12 to R15, R145, R170): the entry is decided by R12, the
record leaves the queue and DONE carries the outcome; a grant opens an own-hold record with the new slot generation, and
enters the surrender set while the permit is LAPSED. Cancelled before, its tag names no record: the grant stands, the
own-hold record opens, and no DONE is produced. A stray changes no entry, and its outcome is STRAY. That a hold opened in
LEAVING counts its time is the model's reading (log 22). -/
def Obligations.OwnClaimCompletes : Prop :=
  ∀ (s : State) (a : Attempt) (tag : Fin 16) (r : Resource) (m : LeaseMode) (w valid : Bool),
    s.sent a → a.source = .host tag → s.sc.station.live = true → a.frame.sender = s.own →
    a.frame.body = .claim r m w (.host tag) →
    valid = (a.frame.role == .member && s.replica.roster[s.own].state == .member
      && a.frame.inc == s.replica.roster[s.own].inc) →
    ∃ t, exec (.frameAccepted .own) s = .next t
      ∧ t.replica = { s.replica with
          entries := if valid then s.replica.entries.set r.val (s.replica.entries[r].claim s.own m w)
            else s.replica.entries
          tsn := s.replica.tsn + 1 }
      ∧ t.requests = s.requests.filter (fun x => x.tag != tag)
      ∧ { t.nu with irq := s.nu.irq } = s.nu.arriveAll (match s.requests.find? (fun x => x.tag == tag) with
          | some q => [.done tag (if valid then claimOutcome s.replica.entries[r] s.own m w else .stray) q.r]
          | none => [])
      ∧ (valid = true → s.replica.entries[r].decideClaim s.own m w = .granted →
          t.tu.holds = (insertHold
              { r := r, gen := s.replica.entries[r].gen + 1, elapsed := 0, running := true, lapsed := false,
                renewal := .idle } (s.tu.holds.filter (fun h => h.r != r))).map t.withRenewal
          ∧ ∃ h ∈ t.tu.holds, h.r = r ∧ h.gen = s.replica.entries[r].gen + 1 ∧ h.elapsed = 0 ∧ h.running = true
            ∧ h.lapsed = false)
      ∧ (valid = false ∨ s.replica.entries[r].decideClaim s.own m w ≠ .granted →
          t.tu.holds = s.tu.holds.map t.withRenewal)
      ∧ (valid = true → s.kp.permit.isLapsed = true → s.replica.entries[r].decideClaim s.own m w = .granted →
          t.surrendering r = true)
      ∧ (valid = true → s.kp.permit.isLapsed = true → s.replica.entries[r].decideClaim s.own m w = .waiting →
          t.surrendering r = true)
      ∧ (valid = false → t.tu.surrender = s.tu.surrender)
      ∧ t.lu.current = none ∧ t.lu.vetoCount = 0 ∧ t.tu.presenceTimer = s.tu.presenceTimer.map (fun _ => 0)
      ∧ t.sc = { s.sc with ownInc := s.replica.roster[s.own].inc }
      ∧ t.config = s.config ∧ t.tm = s.tm ∧ t.kp = s.kp ∧ t.cause = s.cause ∧ t.power = s.power
      ∧ t.gou.maps = s.gou.maps ∧ t.tu.expiry = s.tu.expiry

/-- An own RELEASE or WITHDRAW accepted while the replica is live (R6 to R8, R16, R17, R20, R21, R30, R124, R170): of a valid
actor, the slot or the waiter record goes and promotion runs; a stray changes no entry. Of tag 31, LOST(SURRENDERED) is
told unless the hold had lapsed, or WAIT_ENDED(SURRENDERED), neither by a stray, and the resource leaves the surrender set
whatever the outcome; of a host tag, the record that still holds the tag completes with the outcome, STRAY among them,
after all other records. With the slot goes the own-hold record, and no other changes (R108), this station not waiting
where it holds (R2). -/
def Obligations.OwnRemovalApplied : Prop :=
  ∀ (s : State) (a : Attempt) (r : Resource) (tag : Tag) (release valid hit : Bool), s.sent a →
    a.source = (match tag with | .host t => .host t | .surrender => .surrender r) →
    s.sc.station.live = true → a.frame.sender = s.own →
    a.frame.body = (if release then .release r tag else .withdraw r tag) →
    valid = (a.frame.role == .member && s.replica.roster[s.own].state == .member
      && a.frame.inc == s.replica.roster[s.own].inc) →
    hit = (valid && if release then s.holdsOwn r else s.waitsOwn r) →
    ∃ t, exec (.frameAccepted .own) s = .next t
      ∧ t.replica = { s.replica with
          entries := if valid then s.replica.entries.set r.val (tableRule s.replica.entries[r] s.own a.frame.body).1
            else s.replica.entries
          tsn := s.replica.tsn + 1 }
      ∧ (tag = .surrender → t.surrendering r = false ∧ t.requests = s.requests)
      ∧ (∀ u, tag = .host u → t.requests = s.requests.filter (fun q => q.tag != u))
      ∧ { t.nu with irq := s.nu.irq } = s.nu.arriveAll
          ((if tag = .surrender ∧ hit = true then
              (if release then (if s.lapsedMark r then [] else [.lost r .surrendered]) else [.waitEnded r]) else [])
            ++ (if valid then s.grantNotes r (tableRule s.replica.entries[r] s.own a.frame.body).2 else [])
            ++ (match tag with
              | .host u => (match s.requests.find? (fun q => q.tag == u) with
                | some q => [.done u (match valid, release, hit with
                    | false, _, _ => .stray
                    | true, true, true => .released
                    | true, true, false => .notHolder
                    | true, false, true => .withdrawn
                    | true, false, false => .notWaiting) q.r]
                | none => [])
              | .surrender => []))
      ∧ ((release = true → s.waitsOwn r = false) → t.tu.holds =
          (if release = true ∧ hit = true then s.tu.holds.filter (fun h => h.r != r) else s.tu.holds).map t.withRenewal)
      ∧ t.config = s.config ∧ t.tm = s.tm ∧ t.kp = s.kp
      ∧ t.sc = { s.sc with ownInc := s.replica.roster[s.own].inc }

/-- An own RENEW accepted (R18, R19, R110): applied, the slot and the own-hold record take the advanced generation and the
record counts from zero; late, the record is closed and LOST(EXPIRED) told unless the hold had lapsed; a stray changes no
entry and bars the record's renewal. The TSN advances each time and no record of the request queue is touched. -/
def Obligations.OwnRenewAccepted : Prop :=
  ∀ (s : State) (a : Attempt) (r : Resource) (valid : Bool), s.sent a → a.source = .renew r → a.frame.body = .renew r →
    s.sc.station = .member → a.frame.sender = s.own →
    valid = (a.frame.role == .member && s.replica.roster[s.own].state == .member
      && a.frame.inc == s.replica.roster[s.own].inc) →
    ∃ t, exec (.frameAccepted .own) s = .next t
      ∧ t.replica = { s.replica with
          tsn := s.replica.tsn + 1
          entries := if valid = true ∧ s.holdsOwn r = true then
            s.replica.entries.set r.val (s.replica.entries[r].renew s.own) else s.replica.entries }
      ∧ t.requests = s.requests ∧ t.config = s.config ∧ t.tm = s.tm ∧ t.kp = s.kp
      ∧ t.sc = { s.sc with ownInc := s.replica.roster[s.own].inc }
      ∧ t.tu.surrender = s.tu.surrender ∧ t.tu.expiry = s.tu.expiry ∧ t.tu.presence = s.tu.presence
      ∧ (valid = true → s.holdsOwn r = true →
          t.tu.holds = s.tu.holds.map (fun h => t.withRenewal (if h.r = r then
            { h with
              gen := s.replica.entries[r].gen + 1, elapsed := 0, running := true
              renewal := match h.renewal with
                | .barred => .barred
                | .idle | .candidate _ => .idle } else h))
          ∧ { t.nu with irq := s.nu.irq } = s.nu)
      ∧ (valid = true → s.holdsOwn r = false →
          t.tu.holds = (s.tu.holds.filter (fun h => h.r != r)).map t.withRenewal
          ∧ { t.nu with irq := s.nu.irq } = (match s.holdOf r with
            | some h => if h.lapsed then s.nu else s.nu.arrive (.lost r .expired)
            | none => s.nu))
      ∧ (valid = false → t.tu.holds = s.tu.holds.map (fun h =>
            t.withRenewal (if h.r = r then { h with renewal := .barred } else h))
          ∧ { t.nu with irq := s.nu.irq } = s.nu)

/-- An own EXPIRE or EVICT accepted leaves the verdict queue (R22, R24, R42, R46, R116, R119). Applied, the slot is removed
and promotion runs, or the station is removed from every entry and its pairing cleared on both sides (R25, R47); stale, no
entry and no listing changes; a stray changes neither and restarts the watch from zero. The station judged is in no entry
both holder and waiter (R2) and does not provide for itself (R38). -/
def Obligations.OwnVerdictAccepted : Prop :=
  ∀ (s : State) (a : Attempt) (valid : Bool), s.sent a → s.sc.station = .member → a.frame.sender = s.own →
    valid = (a.frame.role == .member && s.replica.roster[s.own].state == .member
      && a.frame.inc == s.replica.roster[s.own].inc) →
    (∀ (r : Resource) (h : Station) (g : Word16), h ≠ s.own → a.source = .verdict (.expire r h g) →
        a.frame.body = .expire r h g → s.replica.entries[r].waits h = false → ∃ t, exec (.frameAccepted .own) s = .next t
        ∧ t.replica = { s.replica with
            tsn := s.replica.tsn + 1
            entries := if valid then
              s.replica.entries.set r.val (tableRule s.replica.entries[r] s.own (.expire r h g)).1
              else s.replica.entries }
        ∧ { t.nu with irq := s.nu.irq } = s.nu.arriveAll
            (if valid then s.grantNotes r (tableRule s.replica.entries[r] s.own (.expire r h g)).2 else [])
        ∧ (∀ i ∈ t.tu.verdicts, i.verdict ≠ .expire r h g)
        ∧ (valid = true → s.replica.entries[r].holdsAt h g = true →
            ∀ w ∈ t.tu.expiry, w.r = r → w.holder = h → False)
        ∧ (valid = false → ∀ w ∈ t.tu.expiry, w.r = r → w.holder = h → w.elapsed = 0 ∧ w.queued = false)
        ∧ t.requests = s.requests ∧ t.config = s.config ∧ t.tm = s.tm ∧ t.kp = s.kp)
    ∧ (∀ (v : Station) (i : Byte) (hit : Bool), v ≠ s.own → a.source = .verdict (.evict v i) →
        a.frame.body = .evict v i → s.lawfulFor v →
        hit = (valid && s.replica.roster[v].state != .absent && s.replica.roster[v].inc == i) →
        ∃ t, exec (.frameAccepted .own) s = .next t
        ∧ t.replica.tsn = s.replica.tsn + 1
        ∧ { t.nu with irq := s.nu.irq } = s.nu.arriveAll ((if hit then s.removalGrants v else []) ++
            (if hit = true ∧ s.replica.roster[v].state = .member then [.membership v .evicted] else []))
        ∧ (hit = true → RemovesStation s t v
            ∧ (∀ x : Station, t.replica.roster[x] = rosterWithout s.replica.roster v x)
            ∧ t.replica.mismatch = s.replica.mismatch ∧ (∀ w ∈ t.tu.presence, w.station ≠ v))
        ∧ (hit = false → t.replica = { s.replica with tsn := s.replica.tsn + 1 })
        ∧ t.sc = { s.sc with
            ownInc := s.replica.roster[s.own].inc
            shadow := if hit = true ∧ s.replica.roster[v].provider = some s.own then none else s.sc.shadow }
        ∧ (∀ x ∈ t.tu.verdicts, x.verdict ≠ .evict v i)
        ∧ (valid = false → ∀ w ∈ t.tu.presence, w.station = v → w.elapsed = 0 ∧ w.queued = false)
        ∧ t.requests = s.requests ∧ t.config = s.config ∧ t.tm = s.tm ∧ t.kp = s.kp)

/-- The own frames whose acceptance is their whole effect (R35, R59, R70, R91, R98, R117, R125): the JOIN begins the wait; a
SNAPSHOT segment advances the cursor with both counts at 0; a JOIN_REFUSE has done its duty; a PRESENCE is no longer
offered. A running presence timer restarts, and the veto count is 0. -/
def Obligations.OwnUnappliedFramesAccepted : Prop :=
  ∀ (s : State) (a : Attempt), s.sent a → a.withdrawn = false →
    (∀ digest attempt, s.sc.station = .joinWait → a.source = .control .join → a.frame.body = .join digest attempt →
      ∃ t, exec (.frameAccepted .own) s = .next t
        ∧ SettlesTo { s with
            sc := { s.sc with
              control := s.sc.control.eraseP (fun c => c.kind == .join), joinAccepted := true, memberHeard := false,
              lowerHeard := false, joinTimer := some 0 },
            tu := { s.tu with presenceTimer := some 0 }, lu := s.lineAfterOwn } t)
    ∧ (s.sc.station = .member ∨ (∃ i, s.sc.station = .leaving i .live) →
      (∀ i x target attempt tsn p, a.source = .segment i → a.frame.body = .snapshot target attempt tsn p →
        s.sc.shadow = some x → x.next = i → ∃ t, exec (.frameAccepted .own) s = .next t
          ∧ SettlesTo { s with
              sc := { s.sc with shadow := some { x with next := i + 1, requeue := 0, count := 0 } },
              tu := { s.tu with presenceTimer := s.tu.presenceTimer.map (fun _ => 0) }, lu := s.lineAfterOwn } t)
      ∧ (∀ v n, a.source = .control (.joinRefuse v n) → a.frame.body = .joinRefuse v n →
        ∃ t, exec (.frameAccepted .own) s = .next t
          ∧ SettlesTo { s with
              sc := { s.sc with control := s.sc.control.eraseP (fun c => c.kind == .joinRefuse v n) },
              tu := { s.tu with presenceTimer := s.tu.presenceTimer.map (fun _ => 0) }, lu := s.lineAfterOwn } t))
    ∧ (s.sc.station = .member ∨ s.sc.station = .synced → a.source = .presence → a.frame.body = .presence →
      ∃ t, exec (.frameAccepted .own) s = .next t
        ∧ SettlesTo { s with
            tu := { s.tu with presenceOffer := none, presenceTimer := s.tu.presenceTimer.map (fun _ => 0) },
            lu := s.lineAfterOwn } t)

/-- LEAVING ends (R43, R45, R75, R76) with the own LEAVE applied, a stray or, the leave replica being cleared, accepted;
with the own LEAVE at its retry limit; with this station's eviction. The replica and what depends on it are cleared; with
intent stopping the state is OFFLINE and STATION(OFFLINE, LEFT) is told, with intent rejoin a join start follows and
nothing more is told. -/
def Obligations.LeavingEnds : Prop :=
  ∀ (s : State) (i : LeaveIntent) (x : LeaveReplica) (c : Instr), s.sc.station = .leaving i x →
    (∃ a, c = .frameAccepted .own ∧ s.sent a ∧ a.frame.body = .leave ∧ a.frame.sender = s.own)
      ∨ (∃ a l, s.fails a c l ∧ a.withdrawn = false ∧ a.source = .control .leave ∧ s.retryLimit ≤ a.count + 1)
      ∨ (∃ f, c = .frameAccepted (.foreign f) ∧ s.hears f ∧ x = .live ∧ f.sender ≠ s.own
          ∧ f.body = .evict s.own s.replica.roster[s.own].inc ∧ s.replica.roster[s.own].state ≠ .absent
          ∧ f.baseTsn = s.replica.tsn ∧ s.validActor f = true) →
    (∀ r : Resource, ¬(s.replica.entries[r].holds s.own = true ∧ s.replica.entries[r].waits s.own = true)) →
    ∃ t, exec c s = .next t
      ∧ t.replica = Replica.cleared ∧ t.tu = TimerUnit.afterReset ∧ t.sc.shadow = none
      ∧ t.requests = s.requests ∧ t.config = s.config ∧ t.tm = s.tm ∧ t.kp = s.kp
      ∧ (∀ y : Fin 8, t.gou.active[y] = false)
      ∧ (i = .stopping → t.sc.station = .offline ∧ t.sc.control = []
          ∧ { t.nu with irq := s.nu.irq } = s.nu.arrive (.station .offline .left))
      ∧ (i = .rejoin → t.sc.station = .joinWait ∧ t.sc.attemptNo = 0 ∧ t.sc.ownInc = 0 ∧ t.sc.joinAccepted = false
          ∧ t.sc.control = [{ kind := .join, count := 0 }] ∧ { t.nu with irq := s.nu.irq } = s.nu)

/-- A LEAVE of a listed station, or an EVICT of one by a valid actor, removes it from every entry, with promotion in each, and
from the roster, keeps its incarnation, clears its pairing on both sides, advances the TSN, and tells the host MEMBERSHIP
if it was MEMBER, after the grants that this station gained, in the order of the two passes (R25, R42, R44, R46 to R49).
The station is in no entry both holder and waiter (R2) and does not provide for itself (R38). A READY,
LEAVE or EVICT whose sender fails its test, or an EVICT that is stale, changes no entry and no listing and tells nothing
(R33, R45). -/
def Obligations.AcceptedRemovalRemovesStation : Prop :=
  (∀ (s : State) (f : Frame) (v : Station), s.hears f → f.sender ≠ s.own → v ≠ s.own → s.sc.station = .member →
    f.baseTsn = s.replica.tsn → s.replica.roster[v].state ≠ .absent → s.replica.roster[s.own].state = .member →
    s.lawfulFor v →
    (f.body = .leave ∧ f.sender = v ∧ f.inc = s.replica.roster[v].inc)
      ∨ (f.body = .evict v s.replica.roster[v].inc ∧ f.role = .member
          ∧ s.replica.roster[f.sender].state = .member ∧ f.inc = s.replica.roster[f.sender].inc) →
    ∃ t, exec (.frameAccepted (.foreign f)) s = .next t
      ∧ RemovesStation s t v ∧ (∀ x : Station, t.replica.roster[x] = rosterWithout s.replica.roster v x)
      ∧ t.replica.tsn = s.replica.tsn + 1
      ∧ { t.nu with irq := s.nu.irq } = s.nu.arriveAll (s.removalGrants v ++
          (if s.replica.roster[v].state = .member
            then [.membership v (if f.body = .leave then .left else .evicted)] else []))
      ∧ (∀ w ∈ t.tu.presence, w.station ≠ v)
      ∧ t.sc = { s.sc with
          ownInc := s.replica.roster[s.own].inc
          shadow := if s.replica.roster[v].provider = some s.own then none else s.sc.shadow }
      ∧ t.requests = s.requests ∧ t.config = s.config ∧ t.tm = s.tm ∧ t.kp = s.kp)
  ∧ ∀ (s : State) (f : Frame), s.hears f → f.sender ≠ s.own → s.sc.station = .member →
    (f.role = .member → f.baseTsn = s.replica.tsn) →
    (f.body = .ready ∧ ¬(s.replica.roster[f.sender].state = .joining ∧ f.inc = s.replica.roster[f.sender].inc))
      ∨ (f.body = .leave ∧ ¬(s.replica.roster[f.sender].state ≠ .absent ∧ f.inc = s.replica.roster[f.sender].inc))
      ∨ (∃ v i, f.body = .evict v i ∧ ¬(s.validActor f = true ∧ s.replica.roster[v].state ≠ .absent
          ∧ s.replica.roster[v].inc = i)) →
    ∃ t, exec (.frameAccepted (.foreign f)) s = .next t
      ∧ t.replica = { s.replica with
          tsn := s.replica.tsn + 1, mismatch := if f.role = .member then none else s.replica.mismatch }
      ∧ { t.nu with irq := s.nu.irq } = s.nu ∧ t.sc = { s.sc with ownInc := s.replica.roster[s.own].inc }
      ∧ t.requests = s.requests ∧ t.config = s.config ∧ t.tm = s.tm ∧ t.kp = s.kp

/-- A JOIN (R35 to R39) of a station not listed: with this station's digest it is listed JOINING under its next
incarnation, the lowest free MEMBER provides for it, and that member, when it is this station, takes a shadow with the
TSN after the JOIN; with another digest only the TSN moves, and the lowest MEMBER queues the refusal. A station already
listed is removed first, from every entry with promotion in each, its pairing is cleared on both sides, and
MEMBERSHIP(LEFT) told after the grants if it was MEMBER (R25, R36, R47, R48); a provider is then found in the roster that
is left, whenever it has a free MEMBER (R38). The station is in no entry both holder and waiter (R2) and does not provide
for itself (R38). -/
def Obligations.AcceptedJoinListsStation : Prop :=
  ∀ (s : State) (f : Frame) (digest : Word16) (attempt : Fin 4), s.hears f → f.sender ≠ s.own →
    s.sc.station = .member → f.role = .joiner → f.body = .join digest attempt →
    (digest = s.digest → s.replica.roster[f.sender].state = .absent → ∃ t, exec (.frameAccepted (.foreign f)) s = .next t
      ∧ t.replica.entries = s.replica.entries ∧ t.replica.tsn = s.replica.tsn + 1
      ∧ t.replica.mismatch = s.replica.mismatch
      ∧ t.replica.roster[f.sender] = {
          state := .joining
          inc := if s.replica.roster[f.sender].inc = 255 then 1 else s.replica.roster[f.sender].inc + 1
          provider := s.freeProvider f.sender
          providingFor := none }
      ∧ (∀ x, s.freeProvider f.sender = some x → s.replica.roster[x].state = .member
          ∧ s.replica.roster[x].providingFor = none
          ∧ t.replica.roster[x] = { s.replica.roster[x] with providingFor := some f.sender }
          ∧ ∀ y < x, y ≠ f.sender → s.replica.roster[y].state = .member → s.replica.roster[y].providingFor ≠ none)
      ∧ (s.freeProvider f.sender = none →
          ∀ y ≠ f.sender, s.replica.roster[y].state = .member → s.replica.roster[y].providingFor ≠ none)
      ∧ (∀ x ≠ f.sender, s.freeProvider f.sender ≠ some x → t.replica.roster[x] = s.replica.roster[x])
      ∧ (s.freeProvider f.sender = some s.own → ∃ x, t.sc.shadow = some x ∧ x.joiner = f.sender ∧ x.attempt = attempt
          ∧ x.next = 0 ∧ x.tsn = t.replica.tsn ∧ x.roster = t.replica.roster ∧ x.entries = t.replica.entries)
      ∧ (s.freeProvider f.sender ≠ some s.own → t.sc.shadow = s.sc.shadow)
      ∧ (∃ w ∈ t.tu.presence, w.station = f.sender ∧ w.elapsed = 0)
      ∧ { t.nu with irq := s.nu.irq } = s.nu ∧ t.requests = s.requests ∧ t.config = s.config ∧ t.kp = s.kp)
    ∧ (digest ≠ s.digest → ∃ t, exec (.frameAccepted (.foreign f)) s = .next t
      ∧ t.replica = { s.replica with tsn := s.replica.tsn + 1 }
      ∧ t.sc.control = (if s.lowestMember = some s.own
            ∧ (s.sc.control.filter (fun c => !c.kind.isMembership)).length < 4
          then s.sc.control ++ [{ kind := .joinRefuse f.sender attempt, count := 0 }] else s.sc.control)
      ∧ t.sc.shadow = s.sc.shadow ∧ t.requests = s.requests ∧ t.config = s.config ∧ t.kp = s.kp)
    ∧ (digest = s.digest → s.replica.roster[f.sender].state ≠ .absent → s.lawfulFor f.sender →
      ∃ (t : State) (left : Station → RosterEntry) (provider : Option Station),
        exec (.frameAccepted (.foreign f)) s = .next t
      ∧ (∀ x, left x = rosterWithout s.replica.roster f.sender x)
      ∧ (∀ x, provider = some x → x ≠ f.sender ∧ (left x).state = .member ∧ (left x).providingFor = none
          ∧ ∀ y < x, y ≠ f.sender → (left y).state = .member → (left y).providingFor ≠ none)
      ∧ (provider = none → ∀ y ≠ f.sender, (left y).state = .member → (left y).providingFor ≠ none)
      ∧ RemovesStation s t f.sender
      ∧ t.replica.tsn = s.replica.tsn + 1 ∧ t.replica.mismatch = s.replica.mismatch
      ∧ t.replica.roster[f.sender] = {
          state := .joining
          inc := if s.replica.roster[f.sender].inc = 255 then 1 else s.replica.roster[f.sender].inc + 1
          provider := provider
          providingFor := none }
      ∧ (∀ x ≠ f.sender, t.replica.roster[x] =
          if provider = some x then { left x with providingFor := some f.sender } else left x)
      ∧ (provider = some s.own → ∃ x, t.sc.shadow = some x ∧ x.joiner = f.sender ∧ x.attempt = attempt
          ∧ x.next = 0 ∧ x.tsn = t.replica.tsn ∧ x.roster = t.replica.roster ∧ x.entries = t.replica.entries)
      ∧ (provider ≠ some s.own → t.sc.shadow =
          if s.replica.roster[f.sender].provider = some s.own then none else s.sc.shadow)
      ∧ (∃ w ∈ t.tu.presence, w.station = f.sender ∧ w.elapsed = 0 ∧ w.inc = t.replica.roster[f.sender].inc)
      ∧ { t.nu with irq := s.nu.irq } = s.nu.arriveAll (s.removalGrants f.sender ++
          (if s.replica.roster[f.sender].state = .member then [.membership f.sender .left] else []))
      ∧ t.requests = s.requests ∧ t.config = s.config ∧ t.kp = s.kp)

/-- A READY applied makes its sender MEMBER and ends its provider pairing, both parts (R40). The own READY makes this station
MEMBER with the effects of R64 and STATION(MEMBER, JOINED) (R41, R68, R140). Of another station, MEMBERSHIP(JOINED) is told
(R48), and the duty ends if the provider is this station. -/
def Obligations.ReadyMakesMember : Prop :=
  ∀ (s : State) (v : Station) (inc : Byte) (roster : Vector RosterEntry 32),
    s.replica.roster[v].state = .joining → inc = s.replica.roster[v].inc →
    roster = (match s.replica.roster[v].provider with
      | some x => s.replica.roster.set x.val { s.replica.roster[x] with providingFor := none }
      | none => s.replica.roster) →
    (∀ a : Attempt, s.sent a → a.withdrawn = false → v = s.own → s.sc.station = .synced → a.source = .control .ready →
        a.frame.body = .ready → a.frame.sender = s.own → a.frame.inc = inc →
        ∃ t, exec (.frameAccepted .own) s = .next t
          ∧ t.sc.station = .member ∧ t.sc.attemptNo = 0 ∧ t.sc.readyRequeue = 0 ∧ t.sc.ownInc = inc
          ∧ t.replica = { s.replica with
              tsn := s.replica.tsn + 1
              roster := roster.set v.val { roster[v] with state := .member, provider := none } }
          ∧ t.tu.expiry = s.tu.expiry.map (fun w => { w with elapsed := 0, queued := false })
          ∧ t.tu.presence = s.tu.presence.map (fun w => { w with elapsed := 0, queued := false })
          ∧ t.tu.verdicts = [] ∧ t.tu.presenceTimer = some 0
          ∧ t.kp = (if s.configField ConfigRecord.keepPeriod = 0 then { permit := .none, timer := none }
              else { permit := .early, timer := some 0 })
          ∧ { t.nu with irq := s.nu.irq } = s.nu.arrive (.station .member .joined)
          ∧ t.requests = s.requests ∧ t.config = s.config ∧ t.tm = s.tm)
    ∧ (∀ f : Frame, s.hears f → v ≠ s.own → s.sc.station = .member → f.sender = v → f.body = .ready → f.inc = inc →
        (f.role = .member → f.baseTsn = s.replica.tsn) →
        ∃ t, exec (.frameAccepted (.foreign f)) s = .next t
          ∧ t.replica = { s.replica with
              tsn := s.replica.tsn + 1, mismatch := if f.role = .member then none else s.replica.mismatch
              roster := roster.set v.val { roster[v] with state := .member, provider := none } }
          ∧ { t.nu with irq := s.nu.irq } = s.nu.arrive (.membership v .joined)
          ∧ t.sc = { s.sc with
              ownInc := s.replica.roster[s.own].inc
              shadow := if s.replica.roster[v].provider = some s.own then none else s.sc.shadow }
          ∧ t.requests = s.requests ∧ t.config = s.config ∧ t.tm = s.tm ∧ t.kp = s.kp)

/-- The joiner's use of what it hears (R60, R65, R66). In JOIN_WAIT after its own JOIN every accepted frame first sets the
founding-wait facts, and in SNAPSHOT none does; before its own JOIN it uses nothing (R55). Segment 0 that lists it as
JOINING is staged and the state becomes SNAPSHOT; segments 1 to 15 are staged in order, the stall timer starting anew; a
state frame is recorded while fewer than 24 records are held; a PRESENCE, and a segment or a refusal for another station
or attempt, does nothing more. -/
def Obligations.JoinerStagesAndRecords : Prop :=
  ∀ (s : State) (f : Frame) (member lower : Bool), s.hears f → f.sender ≠ s.own →
    member = (s.sc.memberHeard || (s.sc.station == .joinWait && f.role == .member)) →
    lower = (s.sc.lowerHeard || (s.sc.station == .joinWait && f.role == .joiner && decide (f.sender < s.own))) →
    ((s.sc.station = .joinWait ∧ s.sc.joinAccepted = true) ∨ s.sc.station = .snapshot →
      (∀ attempt tsn records, s.sc.station = .joinWait → attempt.val = s.sc.attemptNo →
        f.body = .snapshot s.own attempt tsn (.roster records) → records[s.own].state = .joining →
        ∃ t, exec (.frameAccepted (.foreign f)) s = .next t
          ∧ t.sc = { s.sc with
              memberHeard := member, lowerHeard := lower, station := .snapshot, ownInc := records[s.own].inc
              joinTimer := none, stallTimer := some 0
              staged := some { sender := f.sender, tsn := tsn, roster := records, entries := [], last := 0 } }
          ∧ t.replica = s.replica ∧ t.requests = s.requests ∧ { t.nu with irq := s.nu.irq } = s.nu ∧ t.config = s.config)
      ∧ (∀ attempt (i : Fin 16) four x, s.sc.station = .snapshot → s.sc.staged = some x → attempt.val = s.sc.attemptNo →
        i.val = x.last → i.val < 15 → f.sender = x.sender → f.body = .snapshot s.own attempt x.tsn (.entries i four) →
        ∃ t, exec (.frameAccepted (.foreign f)) s = .next t
          ∧ t.sc = { s.sc with
              stallTimer := some 0
              staged := some { x with entries := x.entries ++ four.toList, last := i.val + 1 } }
          ∧ t.replica = s.replica ∧ t.requests = s.requests ∧ { t.nu with irq := s.nu.irq } = s.nu ∧ t.config = s.config)
      ∧ (f.body.isState = true → s.sc.catchUp.length < 24 →
        ∃ t, exec (.frameAccepted (.foreign f)) s = .next t
          ∧ t.sc = { s.sc with memberHeard := member, lowerHeard := lower, catchUp := s.sc.catchUp ++ [f] }
          ∧ t.replica = s.replica ∧ t.requests = s.requests ∧ { t.nu with irq := s.nu.irq } = s.nu ∧ t.config = s.config)
      ∧ (f.body = .presence
          ∨ (∃ target attempt, (target ≠ s.own ∨ attempt.val ≠ s.sc.attemptNo)
              ∧ (f.body = .joinRefuse target attempt ∨ ∃ tsn p, f.body = .snapshot target attempt tsn p)) →
        ∃ t, exec (.frameAccepted (.foreign f)) s = .next t
          ∧ t.sc = { s.sc with memberHeard := member, lowerHeard := lower }
          ∧ t.replica = s.replica ∧ t.requests = s.requests ∧ { t.nu with irq := s.nu.irq } = s.nu ∧ t.config = s.config))
    ∧ (s.sc.station = .joinWait → s.sc.joinAccepted = false →
      ∃ t, exec (.frameAccepted (.foreign f)) s = .next t ∧ t.sc = s.sc ∧ t.replica = s.replica
        ∧ t.requests = s.requests ∧ { t.nu with irq := s.nu.irq } = s.nu ∧ t.config = s.config)

/-- Segment 16 completes the staged snapshot (R66, R67, R125, R202): it replaces the replica, a watch from zero opens
on every slot and every listed station that is not this one's, and with nothing recorded meanwhile the state becomes
SYNCED with READY queued. What was recorded is applied to the loaded replica oldest first (R53, R67): each record advances
the TSN, the table frames act on their entries as R12 to R22 say, a roster frame acts on the roster and the table as R33
to R47 say, watches on stations follow it, and nothing is told to the host, compared or answered. `u` is the state that
the load leaves with nothing recorded. No record removes this station, which holds and waits for nothing (R29, R40) and
keeps no shadow copy (R72). -/
def Obligations.LastSegmentLoadsSnapshot : Prop :=
  (∀ (s : State) (f : Frame) (x : Staged) (attempt : Fin 4) (four : Vector Entry 4), s.hears f → f.sender ≠ s.own →
    s.sc.station = .snapshot → s.sc.staged = some x → x.last = 15 → x.entries.length = 60 → x.sender = f.sender →
    f.body = .snapshot s.own attempt x.tsn (.entries 15 four) → attempt.val = s.sc.attemptNo → s.sc.catchUp = [] →
    ∃ t, exec (.frameAccepted (.foreign f)) s = .next t
      ∧ t.sc = { s.sc with
          station := .synced, staged := none, stallTimer := none, ownInc := x.roster[s.own].inc,
          control := s.sc.control.filter (fun c => !c.kind.isMembership) ++ [{ kind := .ready, count := 0 }] }
      ∧ t.replica.tsn = x.tsn ∧ t.replica.mismatch = none
      ∧ (∀ r : Resource, (x.entries ++ four.toList)[r.val]? = some t.replica.entries[r])
      ∧ (∀ v : Station, t.replica.roster[v].state = x.roster[v].state ∧ t.replica.roster[v].inc = x.roster[v].inc
          ∧ t.replica.roster[v].providingFor = x.roster[v].providingFor
          ∧ (∀ y, t.replica.roster[v].provider = some y → x.roster[y].providingFor = some v)
          ∧ (t.replica.roster[v].provider = none → ∀ y : Station, x.roster[y].providingFor ≠ some v))
      ∧ (∀ r : Resource, t.replica.entries[r].consistent = true → ∀ h ∈ t.replica.entries[r].holders,
          h.station ≠ s.own →
          ∃ w ∈ t.tu.expiry, w.r = r ∧ w.holder = h.station ∧ w.gen = h.gen ∧ w.elapsed = 0 ∧ w.queued = false)
      ∧ (∀ v : Station, v ≠ s.own → x.roster[v].state ≠ .absent →
          ∃ w ∈ t.tu.presence, w.station = v ∧ w.inc = x.roster[v].inc ∧ w.elapsed = 0 ∧ w.queued = false)
      ∧ { t.nu with irq := s.nu.irq } = s.nu ∧ t.requests = s.requests ∧ t.config = s.config ∧ t.tm = s.tm
      ∧ t.kp = s.kp)
  ∧ ∀ (s u : State) (f : Frame) (x : Staged) (attempt : Fin 4) (four : Vector Entry 4), s.hears f → f.sender ≠ s.own →
    s.sc.station = .snapshot → s.sc.staged = some x → x.last = 15 → x.entries.length = 60 → x.sender = f.sender →
    f.body = .snapshot s.own attempt x.tsn (.entries 15 four) → attempt.val = s.sc.attemptNo →
    (∀ e ∈ x.entries ++ four.toList, e.holds s.own = false ∧ e.waits s.own = false) →
    x.roster[s.own].state ≠ .absent → s.sc.shadow = none →
    (∀ g ∈ s.sc.catchUp, g.body.isState = true ∧ g.sender ≠ s.own ∧ ∀ i, g.body ≠ .evict s.own i) →
    exec (.frameAccepted (.foreign f)) { s with sc := { s.sc with catchUp := [] } } = .next u →
    ∃ t, exec (.frameAccepted (.foreign f)) s = .next t
      ∧ t.sc = u.sc ∧ t.nu = u.nu ∧ t.requests = s.requests ∧ t.config = s.config ∧ t.tm = s.tm ∧ t.kp = s.kp
      ∧ t.replica.tsn = x.tsn + BitVec.ofNat 16 s.sc.catchUp.length ∧ t.replica.mismatch = none
      ∧ ((∀ g ∈ s.sc.catchUp, (tableResource g.body).isSome = true) →
          t.replica.roster = u.replica.roster
          ∧ ∀ r : Resource, t.replica.entries[r] = s.sc.catchUp.foldl (fun e g =>
              if tableResource g.body = some r ∧ u.validActor g = true then (tableRule e g.sender g.body).1 else e)
              u.replica.entries[r])
      ∧ (∀ g, s.sc.catchUp = [g] →
        (∀ digest a, g.body = .join digest a → digest = s.digest → u.replica.roster[g.sender].state = .absent →
          t.replica.entries = u.replica.entries
          ∧ (∃ w ∈ t.tu.presence, w.station = g.sender ∧ w.inc = t.replica.roster[g.sender].inc ∧ w.elapsed = 0)
          ∧ t.replica.roster[g.sender] = {
              state := .joining
              inc := if u.replica.roster[g.sender].inc = 255 then 1 else u.replica.roster[g.sender].inc + 1
              provider := u.freeProvider g.sender
              providingFor := none })
        ∧ (∀ digest a, g.body = .join digest a → digest ≠ s.digest →
          t.replica.entries = u.replica.entries ∧ t.replica.roster = u.replica.roster)
        ∧ (g.body = .ready → u.replica.roster[g.sender].state = .joining → g.inc = u.replica.roster[g.sender].inc →
          t.replica.entries = u.replica.entries ∧ t.replica.roster[g.sender].state = .member
          ∧ t.replica.roster[g.sender].inc = g.inc ∧ t.replica.roster[g.sender].provider = none)
        ∧ (∀ v, u.lawfulFor v → u.replica.roster[v].state ≠ .absent →
          (g.body = .leave ∧ g.sender = v ∧ g.inc = u.replica.roster[v].inc)
            ∨ (g.body = .evict v u.replica.roster[v].inc ∧ u.validActor g = true) →
          RemovesStation u t v ∧ (∀ y : Station, t.replica.roster[y] = rosterWithout u.replica.roster v y)
          ∧ ∀ w ∈ t.tu.presence, w.station ≠ v))

/-- A table frame of another member out of step by its base TSN is noted, and a second station out of step in a row is a
divergence: LEAVING with the rejoin intent, every request cancelled, LEAVE queued (R51, R52, R74, R77, R140). An applied
EVICT of this station makes a join start instead (R45, R57, R78). Both hold in SYNCED as in MEMBER, where a queued READY
goes with the membership frames and there is no request to cancel. In the second part this station is in no entry both
holder and waiter (R2). -/
def Obligations.DivergenceAndEvictionEndMembership : Prop :=
  ∀ (s : State) (f : Frame), s.hears f → f.sender ≠ s.own → s.sc.station = .member ∨ s.sc.station = .synced →
    f.role = .member →
    ((tableResource f.body).isSome = true → f.baseTsn ≠ s.replica.tsn →
      ((∀ v, s.replica.mismatch = some v → v = f.sender) → ∃ t, exec (.frameAccepted (.foreign f)) s = .next t
        ∧ t.sc.station = s.sc.station ∧ t.replica.mismatch = some f.sender ∧ t.replica.tsn = s.replica.tsn + 1
        ∧ t.requests = s.requests ∧ t.kp = s.kp ∧ t.config = s.config)
      ∧ (∀ v, s.replica.mismatch = some v → v ≠ f.sender →
        ∃ (t : State) (own : List Note), exec (.frameAccepted (.foreign f)) s = .next t
        ∧ (∀ n ∈ own, (∃ r m, n = .granted r m) ∨ ∃ r, n = .lost r .expired)
        ∧ t.sc.station = .leaving .rejoin .live ∧ t.replica.tsn = s.replica.tsn + 1 ∧ t.requests = []
        ∧ { t.nu with irq := s.nu.irq } = s.nu.arriveAll (own
            ++ s.requests.map (fun q => .done q.tag .cancelled q.r) ++ [.station (.leaving .rejoin .live) .diverged])
        ∧ t.sc.control = s.sc.control.filter (fun c => !c.kind.isMembership) ++ [{ kind := .leave, count := 0 }]
        ∧ t.kp = { permit := .none, timer := none } ∧ t.tu.verdicts = [] ∧ t.tu.presenceTimer = none
        ∧ (∀ h ∈ t.tu.holds, h.running = false) ∧ (∀ x : Fin 8, t.gou.active[x] = false) ∧ t.config = s.config))
    ∧ (f.body = .evict s.own s.replica.roster[s.own].inc → f.baseTsn = s.replica.tsn →
      s.replica.roster[f.sender].state = .member → f.inc = s.replica.roster[f.sender].inc →
      s.replica.roster[s.own].state ≠ .absent →
      (∀ r : Resource, ¬(s.replica.entries[r].holds s.own = true ∧ s.replica.entries[r].waits s.own = true)) →
      ∃ t, exec (.frameAccepted (.foreign f)) s = .next t
        ∧ t.sc = { s.sc with
            station := .joinWait, attemptNo := 0, ownInc := 0, readyRequeue := 0, joinAccepted := false, catchUp := [],
            staged := none, joinTimer := none, stallTimer := none, shadow := none,
            control := [{ kind := .join, count := 0 }] }
        ∧ t.replica = Replica.cleared ∧ t.tu = TimerUnit.afterReset ∧ t.requests = []
        ∧ { t.nu with irq := s.nu.irq } = s.nu.arriveAll
            (s.requests.map (fun q => .done q.tag .cancelled q.r) ++ [.station .joinWait .evicted])
        ∧ t.kp = { permit := .none, timer := none } ∧ (∀ x : Fin 8, t.gou.active[x] = false) ∧ t.config = s.config
        ∧ t.tm = s.tm)

/-! ## Timer thresholds -/

/-- RENEWAL_DUE: a record that stands at L/2 or more offers its RENEW with count 0 when the conditions of R109 hold.
PRESENCE_DUE: the presence timer at P or more offers a PRESENCE with count 0, unless one is offered already, in MEMBER,
SYNCED, SNAPSHOT, or JOIN_WAIT after the own JOIN (R117). A timer that stands lower, restarted since, changes nothing
(log 4). -/
def Obligations.DueThresholdsOfferFrames : Prop :=
  (∀ (s : State) (r : Resource),
      ((∃ h ∈ s.tu.holds, h.r = r ∧ 50 * s.configField ConfigRecord.leaseTerm ≤ h.elapsed) →
        ∃ t, exec (.renewalDue r) s = .next t ∧ SettlesTo s t
        ∧ (∀ h ∈ s.tu.holds, h.r = r → 50 * s.configField ConfigRecord.leaseTerm ≤ h.elapsed → h.renewal = .idle →
            h.lapsed = false → s.sc.station = .member → s.surrendering r = false → s.releasePending r = false →
            s.kp.permit.isLapsed = false → ∃ h' ∈ t.tu.holds, h'.r = r ∧ h'.renewal = .candidate 0))
      ∧ ((∀ h ∈ s.tu.holds, h.r = r → h.elapsed < 50 * s.configField ConfigRecord.leaseTerm) →
        exec (.renewalDue r) s = .next s))
  ∧ (∀ (s : State) (n : Nat), s.tu.presenceTimer = some n →
      s.sc.station = .member ∨ s.sc.station = .synced ∨ s.sc.station = .snapshot
        ∨ (s.sc.station = .joinWait ∧ s.sc.joinAccepted = true) →
      (10 * s.configField ConfigRecord.presencePeriod ≤ n → ∃ t, exec .presenceDue s = .next t
        ∧ SettlesTo { s with tu := { s.tu with
            presenceOffer := match s.tu.presenceOffer with | some k => some k | none => some 0 } } t)
      ∧ (n < 10 * s.configField ConfigRecord.presencePeriod → exec .presenceDue s = .next s))

/-- SELF_LAPSE (R111) of a record that stands at L or more, or at 3L/4 while DEGRADED: it is marked lapsed and stops, the
resource enters the surrender set unless a host RELEASE of it is pending, LOST(LAPSED) is told, every line mapped to it is
inactive. A record that stands lower has not reached its threshold, and the row changes nothing (log 4). -/
def Obligations.SelfLapseSurrendersHold : Prop :=
  ∀ (s : State) (r : Resource) (threshold : Nat),
    threshold = (if s.tm.timebase = .degraded then 75 else 100) * s.configField ConfigRecord.leaseTerm →
    (s.sc.station = .member → (∃ h ∈ s.tu.holds, h.r = r ∧ h.lapsed = false ∧ threshold ≤ h.elapsed) →
      ∃ t, exec (.selfLapse r) s = .next t
        ∧ SettlesTo { s with
            nu := s.nu.arrive (.lost r .lapsed)
            tu := { s.tu with
              holds := s.tu.holds.map (fun h => if h.r = r then { h with lapsed := true, running := false } else h)
              surrender := if s.releasePending r = true ∨ s.surrendering r = true then s.tu.surrender
                else insertSurrender { r := r, mark := .hold, count := 0 } s.tu.surrender } } t
        ∧ (∀ (x : Fin 8) m, s.gou.maps[x] = some m → m.r = r → t.gou.active[x] = false)
        ∧ (s.releasePending r = false → t.surrendering r = true))
    ∧ ((∀ h ∈ s.tu.holds, h.r = r → h.lapsed = true ∨ h.elapsed < threshold) → exec (.selfLapse r) s = .next s)

/-- The two watch thresholds (R114, R119): a MEMBER that is not DEGRADED queues the EXPIRE or EVICT with the values the
watch holds and count 0, once; a watch whose verdict is queued, or one in another state or while DEGRADED, runs on. A
watch that stands lower has not reached its threshold, and the row changes nothing (log 4). -/
def Obligations.WatchThresholdsQueueVerdicts : Prop :=
  ∀ s : State,
    (∀ w ∈ s.tu.expiry, (∀ w' ∈ s.tu.expiry, w'.r = w.r → w'.holder = w.holder → w' = w) →
      (125 * s.configField ConfigRecord.leaseTerm + 2 * s.own.val ≤ w.elapsed →
        (s.sc.station = .member → s.tm.timebase ≠ .degraded → w.queued = false →
          ∃ t, exec (.expiryWatchThreshold w.r w.holder) s = .next t
            ∧ SettlesTo { s with tu := { s.tu with
                verdicts := s.tu.verdicts ++ [{ verdict := .expire w.r w.holder w.gen, count := 0 }]
                expiry := s.tu.expiry.map (fun x =>
                  if x.r = w.r ∧ x.holder = w.holder then { x with queued := true } else x) } } t)
        ∧ (s.sc.station ≠ .member ∨ s.tm.timebase = .degraded ∨ w.queued = true →
          ∃ t, exec (.expiryWatchThreshold w.r w.holder) s = .next t ∧ SettlesTo s t))
      ∧ (w.elapsed < 125 * s.configField ConfigRecord.leaseTerm + 2 * s.own.val →
        exec (.expiryWatchThreshold w.r w.holder) s = .next s))
    ∧ (∀ w ∈ s.tu.presence, (∀ w' ∈ s.tu.presence, w'.station = w.station → w' = w) →
      (10 * s.configField ConfigRecord.missLimit * s.configField ConfigRecord.presencePeriod + 2 * s.own.val
          ≤ w.elapsed →
        (s.sc.station = .member → s.tm.timebase ≠ .degraded → w.queued = false →
          ∃ t, exec (.presenceWatchThreshold w.station) s = .next t
            ∧ SettlesTo { s with tu := { s.tu with
                verdicts := s.tu.verdicts ++ [{ verdict := .evict w.station w.inc, count := 0 }]
                presence := s.tu.presence.map (fun x =>
                  if x.station = w.station then { x with queued := true } else x) } } t)
        ∧ (s.sc.station ≠ .member ∨ s.tm.timebase = .degraded ∨ w.queued = true →
          ∃ t, exec (.presenceWatchThreshold w.station) s = .next t ∧ SettlesTo s t))
      ∧ (w.elapsed < 10 * s.configField ConfigRecord.missLimit * s.configField ConfigRecord.presencePeriod
            + 2 * s.own.val →
        exec (.presenceWatchThreshold w.station) s = .next s))

/-- JOIN_WAIT_TIMEOUT with no member and no lower joiner heard founds a group (R61, R64, R140). -/
def Obligations.JoinWaitTimeoutFounds : Prop :=
  ∀ (s : State) (n : Nat), s.sc.station = .joinWait → s.sc.joinTimer = some n →
    40 * s.configField ConfigRecord.presencePeriod ≤ n → s.sc.memberHeard = false →
    s.sc.lowerHeard = false →
    ∃ t, exec .joinWaitTimeout s = .next t
      ∧ (∀ r : Resource, t.replica.entries[r] = { mode := .free, gen := 0, holders := [], waiters := [] })
      ∧ (∀ v : Station, t.replica.roster[v] = if v = s.own
          then { state := .member, inc := 1, provider := none, providingFor := none }
          else { state := .absent, inc := 0, provider := none, providingFor := none })
      ∧ t.replica.tsn = 1 ∧ t.replica.mismatch = none
      ∧ t.sc = { s.sc with station := .member, ownInc := 1, catchUp := [], joinTimer := none, attemptNo := 0,
                           readyRequeue := 0 }
      ∧ t.tu.presenceTimer = some 0 ∧ t.tu.verdicts = []
      ∧ t.kp = (if s.configField ConfigRecord.keepPeriod = 0 then { permit := .none, timer := none }
          else { permit := .early, timer := some 0 })
      ∧ { t.nu with irq := s.nu.irq } = s.nu.arrive (.station .member .founded)
      ∧ t.requests = s.requests ∧ t.config = s.config ∧ t.tm = s.tm ∧ t.cause = s.cause ∧ t.power = s.power
      ∧ t.gou.maps = s.gou.maps

/-- The eight causes of a failed join attempt (R53, R62, R66, R68), each ending as `JoinFails` says: the join wait timer at
4 x P with a fact heard; the own JOIN at its retry limit; a segment out of order, or one that does not list this station
as JOINING; the segment stall timer at 4 x P; a state frame while the catch-up queue holds 24; the own listing evicted by
a replayed frame (this station holding and waiting for nothing, R40); the own READY a stray; the own READY at its retry
limit a fourth time. -/
def Obligations.FailedJoinAttempt : Prop :=
  ∀ (s : State) (c : Instr) (live : Bool),
    (∃ n, live = false ∧ c = .joinWaitTimeout ∧ s.sc.station = .joinWait ∧ s.sc.joinTimer = some n
        ∧ 40 * s.configField ConfigRecord.presencePeriod ≤ n ∧ (s.sc.memberHeard = true ∨ s.sc.lowerHeard = true))
      ∨ (∃ a l, live = false ∧ s.fails a c l ∧ a.withdrawn = false ∧ a.source = .control .join
          ∧ s.retryLimit ≤ a.count + 1 ∧ s.sc.station = .joinWait)
      ∨ (∃ f attempt tsn p, live = false ∧ c = .frameAccepted (.foreign f) ∧ s.hears f ∧ f.sender ≠ s.own
          ∧ f.body = .snapshot s.own attempt tsn p ∧ attempt.val = s.sc.attemptNo
          ∧ ((s.sc.station = .joinWait ∧ s.sc.joinAccepted = true
                ∧ ∀ records, p = .roster records → records[s.own].state ≠ .joining)
            ∨ (s.sc.station = .snapshot ∧ ∀ x i four, s.sc.staged = some x → p = .entries i four →
                ¬(i.val = x.last ∧ f.sender = x.sender ∧ tsn = x.tsn))))
      ∨ (∃ n, live = false ∧ c = .segmentStallTimeout ∧ s.sc.station = .snapshot ∧ s.sc.stallTimer = some n
          ∧ 40 * s.configField ConfigRecord.presencePeriod ≤ n)
      ∨ (∃ f, live = false ∧ c = .frameAccepted (.foreign f) ∧ s.hears f ∧ f.sender ≠ s.own ∧ f.body.isState = true
          ∧ ((s.sc.station = .joinWait ∧ s.sc.joinAccepted = true) ∨ s.sc.station = .snapshot)
          ∧ 24 ≤ s.sc.catchUp.length)
      ∨ (∃ f x attempt four g, live = true ∧ c = .frameAccepted (.foreign f) ∧ s.hears f ∧ f.sender ≠ s.own
          ∧ s.sc.station = .snapshot ∧ s.sc.staged = some x ∧ x.last = 15 ∧ x.entries.length = 60 ∧ x.sender = f.sender
          ∧ f.body = .snapshot s.own attempt x.tsn (.entries 15 four) ∧ attempt.val = s.sc.attemptNo
          ∧ (∀ e ∈ x.entries ++ four.toList, e.holds s.own = false ∧ e.waits s.own = false)
          ∧ s.sc.catchUp = [g] ∧ g.body = .evict s.own x.roster[s.own].inc ∧ g.role = .member
          ∧ x.roster[g.sender].state = .member ∧ g.inc = x.roster[g.sender].inc ∧ x.roster[s.own].state ≠ .absent)
      ∨ (∃ a, live = true ∧ c = .frameAccepted .own ∧ s.sent a ∧ s.sc.station = .synced ∧ a.frame.body = .ready
          ∧ a.frame.sender = s.own
          ∧ ¬(s.replica.roster[s.own].state = .joining ∧ a.frame.inc = s.replica.roster[s.own].inc))
      ∨ (∃ a l, live = true ∧ s.fails a c l ∧ a.withdrawn = false ∧ a.source = .control .ready
          ∧ s.retryLimit ≤ a.count + 1 ∧ s.sc.station = .synced ∧ 3 ≤ s.sc.readyRequeue) →
    ∃ t, exec c s = .next t ∧ JoinFails s t live

/-! ## The lease table -/

/-- A CLAIM is decided by the first line of the table of R12 whose condition holds; a grant adds the slot with the
advanced generation, a wait appends at the tail and gives the number of records then in the queue as the position, a
refusal changes nothing. -/
def Obligations.ClaimDecidedByFirstLine : Prop :=
  ∀ (e : Entry) (v : Station) (m : LeaseMode) (w : Bool),
    (e.holds v = true → e.decideClaim v m w = .refusedHeld ∧ e.claim v m w = e)
    ∧ (e.holds v = false → e.waits v = true → e.decideClaim v m w = .refusedWaiting ∧ e.claim v m w = e)
    ∧ (e.holds v = false → e.waits v = false →
        (e.mode = .free ∨ (e.mode = .shared ∧ m = .shared ∧ e.waiters = [] ∧ e.holders.length < 4) →
          e.decideClaim v m w = .granted
          ∧ (e.claim v m w).gen = e.gen + 1 ∧ (e.claim v m w).waiters = e.waiters
          ∧ (e.claim v m w).holders.Perm ({ station := v, gen := e.gen + 1 } :: e.holders)
          ∧ (e.claim v m w).mode = (if e.mode = .free then m.toEntryMode else e.mode))
        ∧ (¬(e.mode = .free ∨ (e.mode = .shared ∧ m = .shared ∧ e.waiters = [] ∧ e.holders.length < 4)) →
          (w = true → e.waiters.length < 6 → e.decideClaim v m w = .waiting
            ∧ e.claim v m w = { e with waiters := e.waiters ++ [{ station := v, mode := m }] }
            ∧ claimOutcome e v m w = .waiting (e.claim v m w).waiters.length)
          ∧ (w = false → e.decideClaim v m w = .refusedBusy ∧ e.claim v m w = e)
          ∧ (w = true → 6 ≤ e.waiters.length → e.decideClaim v m w = .refusedFull ∧ e.claim v m w = e)))

/-- Promotion after the removal of a holder or a waiter of a lawful entry leaves a lawful entry whose head waiter, if
any, cannot be granted; each grant advances the generation by one (R1, R2, R3, R10, R11). -/
def Obligations.PromotionSettlesEntry : Prop :=
  ∀ (e : Entry) (v : Station), e.consistent = true →
    ∀ x, x = (e.dropHolder v).promote ∨ x = (e.dropWaiter v).promote →
      x.1.consistent = true ∧ x.1.settled = true ∧ x.1.gen = e.gen + BitVec.ofNat 16 x.2.length
      ∧ (∀ g ∈ x.2, x.1.holdsAt g.station g.gen = true ∧ ∃ w ∈ e.waiters, w.station = g.station ∧ w.mode = g.mode)

/-- An accepted frame keeps the lease table lawful while the replica is live (SYNCED, MEMBER, LEAVING with a live replica),
whoever sent it, this station included (R1, R2, R6, R10, R75). -/
def Obligations.AcceptedFrameKeepsTableLawful : Prop :=
  ∀ (s t : State) (f : LineFrame), s.sc.station.live = true → s.replica.tableOk →
    exec (.frameAccepted f) s = .next t → t.replica.tableOk

/-! ## Invariants -/

/-- Every step keeps the grant lines and IRQ# as R148 and R186 give them: a line is active exactly when its drive
condition holds, IRQ# is asserted exactly when a condition does. -/
def Obligations.StepKeepsOutputs : Prop :=
  ∀ s t : State, s.outputsOk → step s = .next t → t.outputsOk

/-- Every step keeps the bounds of the queues: the request queue with its distinct tags and resources (R164), the
notification queue and its dropped count (R178), the catch-up queue (R65). -/
def Obligations.StepKeepsQueueBounds : Prop :=
  ∀ s t : State, s.requestsOk → s.notesOk → s.catchUpOk → step s = .next t →
    t.requestsOk ∧ t.notesOk ∧ t.catchUpOk

/-- The state after reset: every item that the spec gives a value (R4, R32, R49, R51, R54, R87, R94, R107, R128, R139, R148,
R154, R160, R162, R164, R178), and the invariants hold there. Which reset it is, and so the phase and the drivers, is the
model's reading (log 7), and no backoff time remaining and `presenceOffer` none are its own choices (log 28). -/
def Obligations.ResetStateHasInvariants : Prop :=
  State.reset.sc = { station := .offline, attemptNo := 0, joinAccepted := false, memberHeard := false, lowerHeard := false,
                     joinTimer := none, staged := none, stallTimer := none, ownInc := 0, catchUp := [], control := [],
                     readyRequeue := 0, shadow := none }
  ∧ State.reset.tu = { holds := [], expiry := [], presence := [], verdicts := [], presenceTimer := none,
                       presenceOffer := none, surrender := [] }
  ∧ State.reset.power = { phase := .running, drivers := true }
  ∧ State.reset.config = none ∧ State.reset.requests = []
  ∧ State.reset.replica.tsn = 0 ∧ State.reset.replica.mismatch = none
  ∧ (∀ r : Resource, State.reset.replica.entries[r] = { mode := .free, gen := 0, holders := [], waiters := [] })
  ∧ (∀ v : Station, State.reset.replica.roster[v] =
      { state := .absent, inc := 0, provider := none, providingFor := none })
  ∧ State.reset.tm = { timebase := .startup, goodCount := 0, recovered := false }
  ∧ State.reset.kp = { permit := .none, timer := none }
  ∧ State.reset.nu = { queue := [], dropped := 0, idle := .stopped, irq := false }
  ∧ (∀ x : Fin 8, State.reset.gou.maps[x] = none ∧ State.reset.gou.active[x] = false)
  ∧ State.reset.lu.tx = .idle ∧ State.reset.lu.current = none ∧ State.reset.lu.backoff = none
  ∧ State.reset.lu.rx = .idle ∧ State.reset.lu.vetoCount = 0 ∧ State.reset.lu.muted = false
  ∧ State.reset.lu.clock = .internal
  ∧ State.reset.cause = { power := true, pin := false, command := false }
  ∧ State.reset.port = .waitHigh ∧ State.reset.pending = []
  ∧ State.reset.outputsOk ∧ State.reset.requestsOk ∧ State.reset.notesOk ∧ State.reset.catchUpOk
  ∧ State.reset.replica.tableOk
end

