-- ==== Sys2Proof/Laws/State.lean ====
section
/-! SUPPORT. One lemma for each field of the state after each update: later proofs unfold no record update. -/

namespace Sys2Proof.Machine

/-! ## State.setPower -/

@[simp] theorem State.setPower_power (s : State) (x : Power) : (s.setPower x).power = x := rfl
@[simp] theorem State.setPower_cause (s : State) (x : Power) : (s.setPower x).cause = s.cause := rfl
@[simp] theorem State.setPower_port (s : State) (x : Power) : (s.setPower x).port = s.port := rfl
@[simp] theorem State.setPower_response (s : State) (x : Power) : (s.setPower x).response = s.response := rfl
@[simp] theorem State.setPower_config (s : State) (x : Power) : (s.setPower x).config = s.config := rfl
@[simp] theorem State.setPower_requests (s : State) (x : Power) : (s.setPower x).requests = s.requests := rfl
@[simp] theorem State.setPower_replica (s : State) (x : Power) : (s.setPower x).replica = s.replica := rfl
@[simp] theorem State.setPower_sc (s : State) (x : Power) : (s.setPower x).sc = s.sc := rfl
@[simp] theorem State.setPower_tu (s : State) (x : Power) : (s.setPower x).tu = s.tu := rfl
@[simp] theorem State.setPower_lu (s : State) (x : Power) : (s.setPower x).lu = s.lu := rfl
@[simp] theorem State.setPower_tm (s : State) (x : Power) : (s.setPower x).tm = s.tm := rfl
@[simp] theorem State.setPower_kp (s : State) (x : Power) : (s.setPower x).kp = s.kp := rfl
@[simp] theorem State.setPower_gou (s : State) (x : Power) : (s.setPower x).gou = s.gou := rfl
@[simp] theorem State.setPower_nu (s : State) (x : Power) : (s.setPower x).nu = s.nu := rfl
@[simp] theorem State.setPower_freeIndex (s : State) (x : Power) : (s.setPower x).freeIndex = s.freeIndex := rfl
@[simp] theorem State.setPower_pending (s : State) (x : Power) : (s.setPower x).pending = s.pending := rfl

/-! ## State.setCause -/

@[simp] theorem State.setCause_power (s : State) (x : ResetCause) : (s.setCause x).power = s.power := rfl
@[simp] theorem State.setCause_cause (s : State) (x : ResetCause) : (s.setCause x).cause = x := rfl
@[simp] theorem State.setCause_port (s : State) (x : ResetCause) : (s.setCause x).port = s.port := rfl
@[simp] theorem State.setCause_response (s : State) (x : ResetCause) : (s.setCause x).response = s.response := rfl
@[simp] theorem State.setCause_config (s : State) (x : ResetCause) : (s.setCause x).config = s.config := rfl
@[simp] theorem State.setCause_requests (s : State) (x : ResetCause) : (s.setCause x).requests = s.requests := rfl
@[simp] theorem State.setCause_replica (s : State) (x : ResetCause) : (s.setCause x).replica = s.replica := rfl
@[simp] theorem State.setCause_sc (s : State) (x : ResetCause) : (s.setCause x).sc = s.sc := rfl
@[simp] theorem State.setCause_tu (s : State) (x : ResetCause) : (s.setCause x).tu = s.tu := rfl
@[simp] theorem State.setCause_lu (s : State) (x : ResetCause) : (s.setCause x).lu = s.lu := rfl
@[simp] theorem State.setCause_tm (s : State) (x : ResetCause) : (s.setCause x).tm = s.tm := rfl
@[simp] theorem State.setCause_kp (s : State) (x : ResetCause) : (s.setCause x).kp = s.kp := rfl
@[simp] theorem State.setCause_gou (s : State) (x : ResetCause) : (s.setCause x).gou = s.gou := rfl
@[simp] theorem State.setCause_nu (s : State) (x : ResetCause) : (s.setCause x).nu = s.nu := rfl
@[simp] theorem State.setCause_freeIndex (s : State) (x : ResetCause) : (s.setCause x).freeIndex = s.freeIndex := rfl
@[simp] theorem State.setCause_pending (s : State) (x : ResetCause) : (s.setCause x).pending = s.pending := rfl

/-! ## State.setPort -/

@[simp] theorem State.setPort_power (s : State) (x : PortState) : (s.setPort x).power = s.power := rfl
@[simp] theorem State.setPort_cause (s : State) (x : PortState) : (s.setPort x).cause = s.cause := rfl
@[simp] theorem State.setPort_port (s : State) (x : PortState) : (s.setPort x).port = x := rfl
@[simp] theorem State.setPort_response (s : State) (x : PortState) : (s.setPort x).response = s.response := rfl
@[simp] theorem State.setPort_config (s : State) (x : PortState) : (s.setPort x).config = s.config := rfl
@[simp] theorem State.setPort_requests (s : State) (x : PortState) : (s.setPort x).requests = s.requests := rfl
@[simp] theorem State.setPort_replica (s : State) (x : PortState) : (s.setPort x).replica = s.replica := rfl
@[simp] theorem State.setPort_sc (s : State) (x : PortState) : (s.setPort x).sc = s.sc := rfl
@[simp] theorem State.setPort_tu (s : State) (x : PortState) : (s.setPort x).tu = s.tu := rfl
@[simp] theorem State.setPort_lu (s : State) (x : PortState) : (s.setPort x).lu = s.lu := rfl
@[simp] theorem State.setPort_tm (s : State) (x : PortState) : (s.setPort x).tm = s.tm := rfl
@[simp] theorem State.setPort_kp (s : State) (x : PortState) : (s.setPort x).kp = s.kp := rfl
@[simp] theorem State.setPort_gou (s : State) (x : PortState) : (s.setPort x).gou = s.gou := rfl
@[simp] theorem State.setPort_nu (s : State) (x : PortState) : (s.setPort x).nu = s.nu := rfl
@[simp] theorem State.setPort_freeIndex (s : State) (x : PortState) : (s.setPort x).freeIndex = s.freeIndex := rfl
@[simp] theorem State.setPort_pending (s : State) (x : PortState) : (s.setPort x).pending = s.pending := rfl

/-! ## State.setResponse -/

@[simp] theorem State.setResponse_power (s : State) (x : List Byte) : (s.setResponse x).power = s.power := rfl
@[simp] theorem State.setResponse_cause (s : State) (x : List Byte) : (s.setResponse x).cause = s.cause := rfl
@[simp] theorem State.setResponse_port (s : State) (x : List Byte) : (s.setResponse x).port = s.port := rfl
@[simp] theorem State.setResponse_response (s : State) (x : List Byte) : (s.setResponse x).response = x := rfl
@[simp] theorem State.setResponse_config (s : State) (x : List Byte) : (s.setResponse x).config = s.config := rfl
@[simp] theorem State.setResponse_requests (s : State) (x : List Byte) : (s.setResponse x).requests = s.requests := rfl
@[simp] theorem State.setResponse_replica (s : State) (x : List Byte) : (s.setResponse x).replica = s.replica := rfl
@[simp] theorem State.setResponse_sc (s : State) (x : List Byte) : (s.setResponse x).sc = s.sc := rfl
@[simp] theorem State.setResponse_tu (s : State) (x : List Byte) : (s.setResponse x).tu = s.tu := rfl
@[simp] theorem State.setResponse_lu (s : State) (x : List Byte) : (s.setResponse x).lu = s.lu := rfl
@[simp] theorem State.setResponse_tm (s : State) (x : List Byte) : (s.setResponse x).tm = s.tm := rfl
@[simp] theorem State.setResponse_kp (s : State) (x : List Byte) : (s.setResponse x).kp = s.kp := rfl
@[simp] theorem State.setResponse_gou (s : State) (x : List Byte) : (s.setResponse x).gou = s.gou := rfl
@[simp] theorem State.setResponse_nu (s : State) (x : List Byte) : (s.setResponse x).nu = s.nu := rfl
@[simp] theorem State.setResponse_freeIndex (s : State) (x : List Byte) : (s.setResponse x).freeIndex = s.freeIndex := rfl
@[simp] theorem State.setResponse_pending (s : State) (x : List Byte) : (s.setResponse x).pending = s.pending := rfl

/-! ## State.setConfig -/

@[simp] theorem State.setConfig_power (s : State) (x : Option ConfigRecord) : (s.setConfig x).power = s.power := rfl
@[simp] theorem State.setConfig_cause (s : State) (x : Option ConfigRecord) : (s.setConfig x).cause = s.cause := rfl
@[simp] theorem State.setConfig_port (s : State) (x : Option ConfigRecord) : (s.setConfig x).port = s.port := rfl
@[simp] theorem State.setConfig_response (s : State) (x : Option ConfigRecord) : (s.setConfig x).response = s.response := rfl
@[simp] theorem State.setConfig_config (s : State) (x : Option ConfigRecord) : (s.setConfig x).config = x := rfl
@[simp] theorem State.setConfig_requests (s : State) (x : Option ConfigRecord) : (s.setConfig x).requests = s.requests := rfl
@[simp] theorem State.setConfig_replica (s : State) (x : Option ConfigRecord) : (s.setConfig x).replica = s.replica := rfl
@[simp] theorem State.setConfig_sc (s : State) (x : Option ConfigRecord) : (s.setConfig x).sc = s.sc := rfl
@[simp] theorem State.setConfig_tu (s : State) (x : Option ConfigRecord) : (s.setConfig x).tu = s.tu := rfl
@[simp] theorem State.setConfig_lu (s : State) (x : Option ConfigRecord) : (s.setConfig x).lu = s.lu := rfl
@[simp] theorem State.setConfig_tm (s : State) (x : Option ConfigRecord) : (s.setConfig x).tm = s.tm := rfl
@[simp] theorem State.setConfig_kp (s : State) (x : Option ConfigRecord) : (s.setConfig x).kp = s.kp := rfl
@[simp] theorem State.setConfig_gou (s : State) (x : Option ConfigRecord) : (s.setConfig x).gou = s.gou := rfl
@[simp] theorem State.setConfig_nu (s : State) (x : Option ConfigRecord) : (s.setConfig x).nu = s.nu := rfl
@[simp] theorem State.setConfig_freeIndex (s : State) (x : Option ConfigRecord) : (s.setConfig x).freeIndex = s.freeIndex := rfl
@[simp] theorem State.setConfig_pending (s : State) (x : Option ConfigRecord) : (s.setConfig x).pending = s.pending := rfl

/-! ## State.setRequests -/

@[simp] theorem State.setRequests_power (s : State) (x : List Request) : (s.setRequests x).power = s.power := rfl
@[simp] theorem State.setRequests_cause (s : State) (x : List Request) : (s.setRequests x).cause = s.cause := rfl
@[simp] theorem State.setRequests_port (s : State) (x : List Request) : (s.setRequests x).port = s.port := rfl
@[simp] theorem State.setRequests_response (s : State) (x : List Request) : (s.setRequests x).response = s.response := rfl
@[simp] theorem State.setRequests_config (s : State) (x : List Request) : (s.setRequests x).config = s.config := rfl
@[simp] theorem State.setRequests_requests (s : State) (x : List Request) : (s.setRequests x).requests = x := rfl
@[simp] theorem State.setRequests_replica (s : State) (x : List Request) : (s.setRequests x).replica = s.replica := rfl
@[simp] theorem State.setRequests_sc (s : State) (x : List Request) : (s.setRequests x).sc = s.sc := rfl
@[simp] theorem State.setRequests_tu (s : State) (x : List Request) : (s.setRequests x).tu = s.tu := rfl
@[simp] theorem State.setRequests_lu (s : State) (x : List Request) : (s.setRequests x).lu = s.lu := rfl
@[simp] theorem State.setRequests_tm (s : State) (x : List Request) : (s.setRequests x).tm = s.tm := rfl
@[simp] theorem State.setRequests_kp (s : State) (x : List Request) : (s.setRequests x).kp = s.kp := rfl
@[simp] theorem State.setRequests_gou (s : State) (x : List Request) : (s.setRequests x).gou = s.gou := rfl
@[simp] theorem State.setRequests_nu (s : State) (x : List Request) : (s.setRequests x).nu = s.nu := rfl
@[simp] theorem State.setRequests_freeIndex (s : State) (x : List Request) : (s.setRequests x).freeIndex = s.freeIndex := rfl
@[simp] theorem State.setRequests_pending (s : State) (x : List Request) : (s.setRequests x).pending = s.pending := rfl

/-! ## State.setReplica -/

@[simp] theorem State.setReplica_power (s : State) (x : Replica) : (s.setReplica x).power = s.power := rfl
@[simp] theorem State.setReplica_cause (s : State) (x : Replica) : (s.setReplica x).cause = s.cause := rfl
@[simp] theorem State.setReplica_port (s : State) (x : Replica) : (s.setReplica x).port = s.port := rfl
@[simp] theorem State.setReplica_response (s : State) (x : Replica) : (s.setReplica x).response = s.response := rfl
@[simp] theorem State.setReplica_config (s : State) (x : Replica) : (s.setReplica x).config = s.config := rfl
@[simp] theorem State.setReplica_requests (s : State) (x : Replica) : (s.setReplica x).requests = s.requests := rfl
@[simp] theorem State.setReplica_replica (s : State) (x : Replica) : (s.setReplica x).replica = x := rfl
@[simp] theorem State.setReplica_sc (s : State) (x : Replica) : (s.setReplica x).sc = s.sc := rfl
@[simp] theorem State.setReplica_tu (s : State) (x : Replica) : (s.setReplica x).tu = s.tu := rfl
@[simp] theorem State.setReplica_lu (s : State) (x : Replica) : (s.setReplica x).lu = s.lu := rfl
@[simp] theorem State.setReplica_tm (s : State) (x : Replica) : (s.setReplica x).tm = s.tm := rfl
@[simp] theorem State.setReplica_kp (s : State) (x : Replica) : (s.setReplica x).kp = s.kp := rfl
@[simp] theorem State.setReplica_gou (s : State) (x : Replica) : (s.setReplica x).gou = s.gou := rfl
@[simp] theorem State.setReplica_nu (s : State) (x : Replica) : (s.setReplica x).nu = s.nu := rfl
@[simp] theorem State.setReplica_freeIndex (s : State) (x : Replica) : (s.setReplica x).freeIndex = s.freeIndex := rfl
@[simp] theorem State.setReplica_pending (s : State) (x : Replica) : (s.setReplica x).pending = s.pending := rfl

/-! ## State.setSc -/

@[simp] theorem State.setSc_power (s : State) (x : StationCtl) : (s.setSc x).power = s.power := rfl
@[simp] theorem State.setSc_cause (s : State) (x : StationCtl) : (s.setSc x).cause = s.cause := rfl
@[simp] theorem State.setSc_port (s : State) (x : StationCtl) : (s.setSc x).port = s.port := rfl
@[simp] theorem State.setSc_response (s : State) (x : StationCtl) : (s.setSc x).response = s.response := rfl
@[simp] theorem State.setSc_config (s : State) (x : StationCtl) : (s.setSc x).config = s.config := rfl
@[simp] theorem State.setSc_requests (s : State) (x : StationCtl) : (s.setSc x).requests = s.requests := rfl
@[simp] theorem State.setSc_replica (s : State) (x : StationCtl) : (s.setSc x).replica = s.replica := rfl
@[simp] theorem State.setSc_sc (s : State) (x : StationCtl) : (s.setSc x).sc = x := rfl
@[simp] theorem State.setSc_tu (s : State) (x : StationCtl) : (s.setSc x).tu = s.tu := rfl
@[simp] theorem State.setSc_lu (s : State) (x : StationCtl) : (s.setSc x).lu = s.lu := rfl
@[simp] theorem State.setSc_tm (s : State) (x : StationCtl) : (s.setSc x).tm = s.tm := rfl
@[simp] theorem State.setSc_kp (s : State) (x : StationCtl) : (s.setSc x).kp = s.kp := rfl
@[simp] theorem State.setSc_gou (s : State) (x : StationCtl) : (s.setSc x).gou = s.gou := rfl
@[simp] theorem State.setSc_nu (s : State) (x : StationCtl) : (s.setSc x).nu = s.nu := rfl
@[simp] theorem State.setSc_freeIndex (s : State) (x : StationCtl) : (s.setSc x).freeIndex = s.freeIndex := rfl
@[simp] theorem State.setSc_pending (s : State) (x : StationCtl) : (s.setSc x).pending = s.pending := rfl

/-! ## State.setTu -/

@[simp] theorem State.setTu_power (s : State) (x : TimerUnit) : (s.setTu x).power = s.power := rfl
@[simp] theorem State.setTu_cause (s : State) (x : TimerUnit) : (s.setTu x).cause = s.cause := rfl
@[simp] theorem State.setTu_port (s : State) (x : TimerUnit) : (s.setTu x).port = s.port := rfl
@[simp] theorem State.setTu_response (s : State) (x : TimerUnit) : (s.setTu x).response = s.response := rfl
@[simp] theorem State.setTu_config (s : State) (x : TimerUnit) : (s.setTu x).config = s.config := rfl
@[simp] theorem State.setTu_requests (s : State) (x : TimerUnit) : (s.setTu x).requests = s.requests := rfl
@[simp] theorem State.setTu_replica (s : State) (x : TimerUnit) : (s.setTu x).replica = s.replica := rfl
@[simp] theorem State.setTu_sc (s : State) (x : TimerUnit) : (s.setTu x).sc = s.sc := rfl
@[simp] theorem State.setTu_tu (s : State) (x : TimerUnit) : (s.setTu x).tu = x := rfl
@[simp] theorem State.setTu_lu (s : State) (x : TimerUnit) : (s.setTu x).lu = s.lu := rfl
@[simp] theorem State.setTu_tm (s : State) (x : TimerUnit) : (s.setTu x).tm = s.tm := rfl
@[simp] theorem State.setTu_kp (s : State) (x : TimerUnit) : (s.setTu x).kp = s.kp := rfl
@[simp] theorem State.setTu_gou (s : State) (x : TimerUnit) : (s.setTu x).gou = s.gou := rfl
@[simp] theorem State.setTu_nu (s : State) (x : TimerUnit) : (s.setTu x).nu = s.nu := rfl
@[simp] theorem State.setTu_freeIndex (s : State) (x : TimerUnit) : (s.setTu x).freeIndex = s.freeIndex := rfl
@[simp] theorem State.setTu_pending (s : State) (x : TimerUnit) : (s.setTu x).pending = s.pending := rfl

/-! ## State.setLu -/

@[simp] theorem State.setLu_power (s : State) (x : LineUnit) : (s.setLu x).power = s.power := rfl
@[simp] theorem State.setLu_cause (s : State) (x : LineUnit) : (s.setLu x).cause = s.cause := rfl
@[simp] theorem State.setLu_port (s : State) (x : LineUnit) : (s.setLu x).port = s.port := rfl
@[simp] theorem State.setLu_response (s : State) (x : LineUnit) : (s.setLu x).response = s.response := rfl
@[simp] theorem State.setLu_config (s : State) (x : LineUnit) : (s.setLu x).config = s.config := rfl
@[simp] theorem State.setLu_requests (s : State) (x : LineUnit) : (s.setLu x).requests = s.requests := rfl
@[simp] theorem State.setLu_replica (s : State) (x : LineUnit) : (s.setLu x).replica = s.replica := rfl
@[simp] theorem State.setLu_sc (s : State) (x : LineUnit) : (s.setLu x).sc = s.sc := rfl
@[simp] theorem State.setLu_tu (s : State) (x : LineUnit) : (s.setLu x).tu = s.tu := rfl
@[simp] theorem State.setLu_lu (s : State) (x : LineUnit) : (s.setLu x).lu = x := rfl
@[simp] theorem State.setLu_tm (s : State) (x : LineUnit) : (s.setLu x).tm = s.tm := rfl
@[simp] theorem State.setLu_kp (s : State) (x : LineUnit) : (s.setLu x).kp = s.kp := rfl
@[simp] theorem State.setLu_gou (s : State) (x : LineUnit) : (s.setLu x).gou = s.gou := rfl
@[simp] theorem State.setLu_nu (s : State) (x : LineUnit) : (s.setLu x).nu = s.nu := rfl
@[simp] theorem State.setLu_freeIndex (s : State) (x : LineUnit) : (s.setLu x).freeIndex = s.freeIndex := rfl
@[simp] theorem State.setLu_pending (s : State) (x : LineUnit) : (s.setLu x).pending = s.pending := rfl

/-! ## State.setTm -/

@[simp] theorem State.setTm_power (s : State) (x : TimebaseMonitor) : (s.setTm x).power = s.power := rfl
@[simp] theorem State.setTm_cause (s : State) (x : TimebaseMonitor) : (s.setTm x).cause = s.cause := rfl
@[simp] theorem State.setTm_port (s : State) (x : TimebaseMonitor) : (s.setTm x).port = s.port := rfl
@[simp] theorem State.setTm_response (s : State) (x : TimebaseMonitor) : (s.setTm x).response = s.response := rfl
@[simp] theorem State.setTm_config (s : State) (x : TimebaseMonitor) : (s.setTm x).config = s.config := rfl
@[simp] theorem State.setTm_requests (s : State) (x : TimebaseMonitor) : (s.setTm x).requests = s.requests := rfl
@[simp] theorem State.setTm_replica (s : State) (x : TimebaseMonitor) : (s.setTm x).replica = s.replica := rfl
@[simp] theorem State.setTm_sc (s : State) (x : TimebaseMonitor) : (s.setTm x).sc = s.sc := rfl
@[simp] theorem State.setTm_tu (s : State) (x : TimebaseMonitor) : (s.setTm x).tu = s.tu := rfl
@[simp] theorem State.setTm_lu (s : State) (x : TimebaseMonitor) : (s.setTm x).lu = s.lu := rfl
@[simp] theorem State.setTm_tm (s : State) (x : TimebaseMonitor) : (s.setTm x).tm = x := rfl
@[simp] theorem State.setTm_kp (s : State) (x : TimebaseMonitor) : (s.setTm x).kp = s.kp := rfl
@[simp] theorem State.setTm_gou (s : State) (x : TimebaseMonitor) : (s.setTm x).gou = s.gou := rfl
@[simp] theorem State.setTm_nu (s : State) (x : TimebaseMonitor) : (s.setTm x).nu = s.nu := rfl
@[simp] theorem State.setTm_freeIndex (s : State) (x : TimebaseMonitor) : (s.setTm x).freeIndex = s.freeIndex := rfl
@[simp] theorem State.setTm_pending (s : State) (x : TimebaseMonitor) : (s.setTm x).pending = s.pending := rfl

/-! ## State.setKp -/

@[simp] theorem State.setKp_power (s : State) (x : KeepPermit) : (s.setKp x).power = s.power := rfl
@[simp] theorem State.setKp_cause (s : State) (x : KeepPermit) : (s.setKp x).cause = s.cause := rfl
@[simp] theorem State.setKp_port (s : State) (x : KeepPermit) : (s.setKp x).port = s.port := rfl
@[simp] theorem State.setKp_response (s : State) (x : KeepPermit) : (s.setKp x).response = s.response := rfl
@[simp] theorem State.setKp_config (s : State) (x : KeepPermit) : (s.setKp x).config = s.config := rfl
@[simp] theorem State.setKp_requests (s : State) (x : KeepPermit) : (s.setKp x).requests = s.requests := rfl
@[simp] theorem State.setKp_replica (s : State) (x : KeepPermit) : (s.setKp x).replica = s.replica := rfl
@[simp] theorem State.setKp_sc (s : State) (x : KeepPermit) : (s.setKp x).sc = s.sc := rfl
@[simp] theorem State.setKp_tu (s : State) (x : KeepPermit) : (s.setKp x).tu = s.tu := rfl
@[simp] theorem State.setKp_lu (s : State) (x : KeepPermit) : (s.setKp x).lu = s.lu := rfl
@[simp] theorem State.setKp_tm (s : State) (x : KeepPermit) : (s.setKp x).tm = s.tm := rfl
@[simp] theorem State.setKp_kp (s : State) (x : KeepPermit) : (s.setKp x).kp = x := rfl
@[simp] theorem State.setKp_gou (s : State) (x : KeepPermit) : (s.setKp x).gou = s.gou := rfl
@[simp] theorem State.setKp_nu (s : State) (x : KeepPermit) : (s.setKp x).nu = s.nu := rfl
@[simp] theorem State.setKp_freeIndex (s : State) (x : KeepPermit) : (s.setKp x).freeIndex = s.freeIndex := rfl
@[simp] theorem State.setKp_pending (s : State) (x : KeepPermit) : (s.setKp x).pending = s.pending := rfl

/-! ## State.setGou -/

@[simp] theorem State.setGou_power (s : State) (x : GrantOutputs) : (s.setGou x).power = s.power := rfl
@[simp] theorem State.setGou_cause (s : State) (x : GrantOutputs) : (s.setGou x).cause = s.cause := rfl
@[simp] theorem State.setGou_port (s : State) (x : GrantOutputs) : (s.setGou x).port = s.port := rfl
@[simp] theorem State.setGou_response (s : State) (x : GrantOutputs) : (s.setGou x).response = s.response := rfl
@[simp] theorem State.setGou_config (s : State) (x : GrantOutputs) : (s.setGou x).config = s.config := rfl
@[simp] theorem State.setGou_requests (s : State) (x : GrantOutputs) : (s.setGou x).requests = s.requests := rfl
@[simp] theorem State.setGou_replica (s : State) (x : GrantOutputs) : (s.setGou x).replica = s.replica := rfl
@[simp] theorem State.setGou_sc (s : State) (x : GrantOutputs) : (s.setGou x).sc = s.sc := rfl
@[simp] theorem State.setGou_tu (s : State) (x : GrantOutputs) : (s.setGou x).tu = s.tu := rfl
@[simp] theorem State.setGou_lu (s : State) (x : GrantOutputs) : (s.setGou x).lu = s.lu := rfl
@[simp] theorem State.setGou_tm (s : State) (x : GrantOutputs) : (s.setGou x).tm = s.tm := rfl
@[simp] theorem State.setGou_kp (s : State) (x : GrantOutputs) : (s.setGou x).kp = s.kp := rfl
@[simp] theorem State.setGou_gou (s : State) (x : GrantOutputs) : (s.setGou x).gou = x := rfl
@[simp] theorem State.setGou_nu (s : State) (x : GrantOutputs) : (s.setGou x).nu = s.nu := rfl
@[simp] theorem State.setGou_freeIndex (s : State) (x : GrantOutputs) : (s.setGou x).freeIndex = s.freeIndex := rfl
@[simp] theorem State.setGou_pending (s : State) (x : GrantOutputs) : (s.setGou x).pending = s.pending := rfl

/-! ## State.setNu -/

@[simp] theorem State.setNu_power (s : State) (x : NoteUnit) : (s.setNu x).power = s.power := rfl
@[simp] theorem State.setNu_cause (s : State) (x : NoteUnit) : (s.setNu x).cause = s.cause := rfl
@[simp] theorem State.setNu_port (s : State) (x : NoteUnit) : (s.setNu x).port = s.port := rfl
@[simp] theorem State.setNu_response (s : State) (x : NoteUnit) : (s.setNu x).response = s.response := rfl
@[simp] theorem State.setNu_config (s : State) (x : NoteUnit) : (s.setNu x).config = s.config := rfl
@[simp] theorem State.setNu_requests (s : State) (x : NoteUnit) : (s.setNu x).requests = s.requests := rfl
@[simp] theorem State.setNu_replica (s : State) (x : NoteUnit) : (s.setNu x).replica = s.replica := rfl
@[simp] theorem State.setNu_sc (s : State) (x : NoteUnit) : (s.setNu x).sc = s.sc := rfl
@[simp] theorem State.setNu_tu (s : State) (x : NoteUnit) : (s.setNu x).tu = s.tu := rfl
@[simp] theorem State.setNu_lu (s : State) (x : NoteUnit) : (s.setNu x).lu = s.lu := rfl
@[simp] theorem State.setNu_tm (s : State) (x : NoteUnit) : (s.setNu x).tm = s.tm := rfl
@[simp] theorem State.setNu_kp (s : State) (x : NoteUnit) : (s.setNu x).kp = s.kp := rfl
@[simp] theorem State.setNu_gou (s : State) (x : NoteUnit) : (s.setNu x).gou = s.gou := rfl
@[simp] theorem State.setNu_nu (s : State) (x : NoteUnit) : (s.setNu x).nu = x := rfl
@[simp] theorem State.setNu_freeIndex (s : State) (x : NoteUnit) : (s.setNu x).freeIndex = s.freeIndex := rfl
@[simp] theorem State.setNu_pending (s : State) (x : NoteUnit) : (s.setNu x).pending = s.pending := rfl

/-! ## State.setFreeIndex -/

@[simp] theorem State.setFreeIndex_power (s : State) (x : Nat) : (s.setFreeIndex x).power = s.power := rfl
@[simp] theorem State.setFreeIndex_cause (s : State) (x : Nat) : (s.setFreeIndex x).cause = s.cause := rfl
@[simp] theorem State.setFreeIndex_port (s : State) (x : Nat) : (s.setFreeIndex x).port = s.port := rfl
@[simp] theorem State.setFreeIndex_response (s : State) (x : Nat) : (s.setFreeIndex x).response = s.response := rfl
@[simp] theorem State.setFreeIndex_config (s : State) (x : Nat) : (s.setFreeIndex x).config = s.config := rfl
@[simp] theorem State.setFreeIndex_requests (s : State) (x : Nat) : (s.setFreeIndex x).requests = s.requests := rfl
@[simp] theorem State.setFreeIndex_replica (s : State) (x : Nat) : (s.setFreeIndex x).replica = s.replica := rfl
@[simp] theorem State.setFreeIndex_sc (s : State) (x : Nat) : (s.setFreeIndex x).sc = s.sc := rfl
@[simp] theorem State.setFreeIndex_tu (s : State) (x : Nat) : (s.setFreeIndex x).tu = s.tu := rfl
@[simp] theorem State.setFreeIndex_lu (s : State) (x : Nat) : (s.setFreeIndex x).lu = s.lu := rfl
@[simp] theorem State.setFreeIndex_tm (s : State) (x : Nat) : (s.setFreeIndex x).tm = s.tm := rfl
@[simp] theorem State.setFreeIndex_kp (s : State) (x : Nat) : (s.setFreeIndex x).kp = s.kp := rfl
@[simp] theorem State.setFreeIndex_gou (s : State) (x : Nat) : (s.setFreeIndex x).gou = s.gou := rfl
@[simp] theorem State.setFreeIndex_nu (s : State) (x : Nat) : (s.setFreeIndex x).nu = s.nu := rfl
@[simp] theorem State.setFreeIndex_freeIndex (s : State) (x : Nat) : (s.setFreeIndex x).freeIndex = x := rfl
@[simp] theorem State.setFreeIndex_pending (s : State) (x : Nat) : (s.setFreeIndex x).pending = s.pending := rfl

/-! ## State.setPending -/

@[simp] theorem State.setPending_power (s : State) (x : List Instr) : (s.setPending x).power = s.power := rfl
@[simp] theorem State.setPending_cause (s : State) (x : List Instr) : (s.setPending x).cause = s.cause := rfl
@[simp] theorem State.setPending_port (s : State) (x : List Instr) : (s.setPending x).port = s.port := rfl
@[simp] theorem State.setPending_response (s : State) (x : List Instr) : (s.setPending x).response = s.response := rfl
@[simp] theorem State.setPending_config (s : State) (x : List Instr) : (s.setPending x).config = s.config := rfl
@[simp] theorem State.setPending_requests (s : State) (x : List Instr) : (s.setPending x).requests = s.requests := rfl
@[simp] theorem State.setPending_replica (s : State) (x : List Instr) : (s.setPending x).replica = s.replica := rfl
@[simp] theorem State.setPending_sc (s : State) (x : List Instr) : (s.setPending x).sc = s.sc := rfl
@[simp] theorem State.setPending_tu (s : State) (x : List Instr) : (s.setPending x).tu = s.tu := rfl
@[simp] theorem State.setPending_lu (s : State) (x : List Instr) : (s.setPending x).lu = s.lu := rfl
@[simp] theorem State.setPending_tm (s : State) (x : List Instr) : (s.setPending x).tm = s.tm := rfl
@[simp] theorem State.setPending_kp (s : State) (x : List Instr) : (s.setPending x).kp = s.kp := rfl
@[simp] theorem State.setPending_gou (s : State) (x : List Instr) : (s.setPending x).gou = s.gou := rfl
@[simp] theorem State.setPending_nu (s : State) (x : List Instr) : (s.setPending x).nu = s.nu := rfl
@[simp] theorem State.setPending_freeIndex (s : State) (x : List Instr) : (s.setPending x).freeIndex = s.freeIndex := rfl
@[simp] theorem State.setPending_pending (s : State) (x : List Instr) : (s.setPending x).pending = x := rfl

end Sys2Proof.Machine
end

