-- ==== Sys2Proof/Laws/Settle.lean ====
section
/-! SUPPORT. What `settle` and the operations it is made of can do. -/

namespace Sys2Proof.Machine

/-! ## Each part as one update -/

theorem LineUnit.setCurrent_self (l : LineUnit) (x : Option Attempt) (h : l.current = x) :
    { l with current := x } = l := by subst h; rfl

theorem LineUnit.setTx_self (l : LineUnit) (x : TxState) (h : l.tx = x) : { l with tx := x } = l := by subst h; rfl

/-- A withdrawal changes nothing but the mark of the current attempt. -/
theorem State.withdrawAttempt_eq (s : State) (p : Source → Bool) :
    s.withdrawAttempt p = s.setLu { s.lu with
      current := s.lu.current.map (fun a => if p a.source then { a with withdrawn := true } else a) } := by
  unfold State.withdrawAttempt
  rcases h : s.lu.current with _ | a
  · simp [LineUnit.setCurrent_self _ _ h, State.setLu]
  · by_cases hp : p a.source
    · simp [hp]
    · simp [hp, LineUnit.setCurrent_self _ _ h, State.setLu]

/-- IDLE and DEFER as one update. -/
theorem State.refreshTx_eq (s : State) :
    s.refreshTx = s.setLu { s.lu with tx :=
      if s.lu.tx = .idle ∨ s.lu.tx = .defer then (if s.listening && !s.candidates.isEmpty then .defer else .idle)
      else s.lu.tx } := by
  unfold State.refreshTx
  rcases h : s.lu.tx <;> simp [State.setLu, LineUnit.setTx_self _ _ h]

/-! ## `settle` -/

theorem OwnHold.renewalRule_core (s : State) (h : OwnHold) :
    (s.renewalRule h).r = h.r ∧ (s.renewalRule h).gen = h.gen ∧ (s.renewalRule h).elapsed = h.elapsed
      ∧ (s.renewalRule h).running = h.running ∧ (s.renewalRule h).lapsed = h.lapsed := by
  unfold State.renewalRule
  split <;> (try split) <;> simp

/-- Whether `r` is lapsed does not turn on renewal states. -/
theorem lapsed_renewalRule (s : State) (r : Resource) (hs : List OwnHold) :
    (hs.map s.renewalRule).any (fun h => h.r == r && h.lapsed) = hs.any (fun h => h.r == r && h.lapsed) := by
  induction hs with
  | nil => rfl
  | cons h t ih =>
    have hc := OwnHold.renewalRule_core s h
    rw [List.map_cons, List.any_cons, List.any_cons, ih, hc.1, hc.2.2.2.2]

/-- The rule of R109 read off in any state with the same conditions and the same renewal threshold. -/
theorem State.withRenewal_eq (s t : State) (h : OwnHold) (ha : t.renewAllowed h = s.renewAllowed h)
    (hm : t.renewalMs = s.renewalMs) : t.withRenewal h = s.renewalRule h := by
  unfold State.withRenewal State.renewalRule
  rw [ha, hm]
  rcases h with ⟨r, g, n, run, l, _ | k | _⟩ <;> rcases s.renewAllowed _ with _ | _ <;> simp
  split <;> rfl

/-- `settle` does what `SettlesTo` says and nothing else. -/
theorem State.settle_settlesTo (s : State) : SettlesTo s s.settle := by
  have tx := s.refreshRenewals.refreshTx_eq
  have lu : s.refreshRenewals.lu = { s.lu with current := s.refreshRenewals.lu.current } := by
    simp [State.refreshRenewals, State.withdrawAttempt_eq]
  have same : s.refreshRenewals.refreshTx = s.refreshRenewals.setLu s.refreshRenewals.refreshTx.lu := by
    rw [tx]; rfl
  have base : s.refreshRenewals = (s.setLu s.refreshRenewals.lu).setTu { s.tu with holds := s.tu.holds.map s.renewalRule } := by
    simp only [State.refreshRenewals, State.withdrawAttempt_eq]; rfl
  have allow : ∀ x, s.settle.renewAllowed x = s.renewAllowed x := by
    intro x; simp only [State.settle, State.refreshIrq, State.refreshLines]; rw [tx, base]; rfl
  have ms : s.settle.renewalMs = s.renewalMs := by
    simp only [State.settle, State.refreshIrq, State.refreshLines]; rw [tx, base]; rfl
  refine ⟨?_, ?_, ?_, ?_, ?_, ?_⟩
  · simp only [State.settle, State.refreshIrq, State.refreshLines]
    rw [tx, base, lu]; rfl
  · have hs : s.settle.tu.holds = s.tu.holds.map s.renewalRule := by
      simp only [State.settle, State.refreshIrq, State.refreshLines]; rw [tx, base]; rfl
    rw [hs]
    exact List.map_congr_left (fun h _ => (s.withRenewal_eq s.settle h (allow h) ms).symm)
  · have cur : s.settle.lu.current = s.refreshRenewals.lu.current := by
      simp only [State.settle, State.refreshIrq, State.refreshLines]; rw [tx]; rfl
    rw [cur]
    simp only [State.refreshRenewals, State.withdrawAttempt_eq, State.setTu_lu, State.setLu_lu, allow]
    congr 1
    funext a
    rcases a.source with _ | r | _ | _ | _ | _ | _
    case renew => rcases hb : s.tu.holds.any (fun h => h.r == r && s.renewAllowed h) with _ | _ <;> simp [hb]
    all_goals simp
  · have tx' : s.settle.lu.tx = s.refreshRenewals.refreshTx.lu.tx := rfl
    have c1 : s.refreshRenewals.listening = s.settle.listening := by
      simp only [State.settle, State.refreshIrq, State.refreshLines]; rw [tx]; rfl
    have c2 : s.refreshRenewals.candidates = s.settle.candidates := by
      simp only [State.settle, State.refreshIrq, State.refreshLines]; rw [tx]; rfl
    have c3 : s.refreshRenewals.lu.tx = s.lu.tx := by rw [lu]
    rw [tx', tx, State.setLu_lu, ← c1, ← c2, ← c3]
  · simp only [State.settle, State.refreshIrq, State.refreshLines]; rfl
  · rfl

/-! ## What `settle` leaves -/

@[simp] theorem State.withRenewal_r (t : State) (h : OwnHold) : (t.withRenewal h).r = h.r := rfl

@[simp] theorem State.withRenewal_gen (t : State) (h : OwnHold) : (t.withRenewal h).gen = h.gen := rfl

@[simp] theorem State.withRenewal_elapsed (t : State) (h : OwnHold) : (t.withRenewal h).elapsed = h.elapsed := rfl

@[simp] theorem State.withRenewal_running (t : State) (h : OwnHold) : (t.withRenewal h).running = h.running := rfl

@[simp] theorem State.withRenewal_lapsed (t : State) (h : OwnHold) : (t.withRenewal h).lapsed = h.lapsed := rfl

/-- A RENEW stands offered only while its conditions hold, and a record without one is not due or not allowed (R109). -/
theorem State.withRenewal_spec (t : State) (h : OwnHold) :
    ((t.withRenewal h).offered = true → t.renewAllowed h = true)
    ∧ ((t.withRenewal h).renewal = .idle → ¬(t.renewAllowed h = true ∧ t.renewalMs ≤ h.elapsed)) := by
  unfold State.withRenewal OwnHold.offered
  rcases hr : h.renewal with _ | n | _ <;> rcases ha : t.renewAllowed h with _ | _ <;>
    by_cases he : t.renewalMs ≤ h.elapsed <;> simp [he]

/-- The current attempt stands unless it is a RENEW. -/
theorem SettlesTo.current_same {e t : State} (h : SettlesTo e t)
    (hc : ∀ a r, e.lu.current = some a → a.source ≠ .renew r) : t.lu.current = e.lu.current := by
  rw [h.attempt]
  rcases he : e.lu.current with _ | a
  · rfl
  · simp only [Option.map_some, Option.some.injEq]
    split
    · exact absurd ‹_› (hc a _ he)
    all_goals rfl

theorem SettlesTo.power {e t : State} (h : SettlesTo e t) : t.power = e.power := by rw [h.frame]

theorem SettlesTo.cause {e t : State} (h : SettlesTo e t) : t.cause = e.cause := by rw [h.frame]

theorem SettlesTo.port {e t : State} (h : SettlesTo e t) : t.port = e.port := by rw [h.frame]

theorem SettlesTo.response {e t : State} (h : SettlesTo e t) : t.response = e.response := by rw [h.frame]

theorem SettlesTo.config {e t : State} (h : SettlesTo e t) : t.config = e.config := by rw [h.frame]

theorem SettlesTo.requests {e t : State} (h : SettlesTo e t) : t.requests = e.requests := by rw [h.frame]

theorem SettlesTo.replica {e t : State} (h : SettlesTo e t) : t.replica = e.replica := by rw [h.frame]

theorem SettlesTo.sc {e t : State} (h : SettlesTo e t) : t.sc = e.sc := by rw [h.frame]

theorem SettlesTo.tm {e t : State} (h : SettlesTo e t) : t.tm = e.tm := by rw [h.frame]

theorem SettlesTo.kp {e t : State} (h : SettlesTo e t) : t.kp = e.kp := by rw [h.frame]

theorem SettlesTo.freeIndex {e t : State} (h : SettlesTo e t) : t.freeIndex = e.freeIndex := by rw [h.frame]

theorem SettlesTo.pending {e t : State} (h : SettlesTo e t) : t.pending = e.pending := by rw [h.frame]

theorem SettlesTo.gou_maps {e t : State} (h : SettlesTo e t) : t.gou.maps = e.gou.maps := by rw [h.frame]

theorem SettlesTo.nu_queue {e t : State} (h : SettlesTo e t) : t.nu.queue = e.nu.queue := by rw [h.frame]

theorem SettlesTo.nu_dropped {e t : State} (h : SettlesTo e t) : t.nu.dropped = e.nu.dropped := by rw [h.frame]

theorem SettlesTo.nu_idle {e t : State} (h : SettlesTo e t) : t.nu.idle = e.nu.idle := by rw [h.frame]

theorem SettlesTo.tu_expiry {e t : State} (h : SettlesTo e t) : t.tu.expiry = e.tu.expiry := by rw [h.frame]

theorem SettlesTo.tu_presence {e t : State} (h : SettlesTo e t) : t.tu.presence = e.tu.presence := by rw [h.frame]

theorem SettlesTo.tu_verdicts {e t : State} (h : SettlesTo e t) : t.tu.verdicts = e.tu.verdicts := by rw [h.frame]

theorem SettlesTo.tu_presenceTimer {e t : State} (h : SettlesTo e t) : t.tu.presenceTimer = e.tu.presenceTimer := by rw [h.frame]

theorem SettlesTo.tu_presenceOffer {e t : State} (h : SettlesTo e t) : t.tu.presenceOffer = e.tu.presenceOffer := by rw [h.frame]

theorem SettlesTo.tu_surrender {e t : State} (h : SettlesTo e t) : t.tu.surrender = e.tu.surrender := by rw [h.frame]

theorem SettlesTo.lu_backoff {e t : State} (h : SettlesTo e t) : t.lu.backoff = e.lu.backoff := by rw [h.frame]

theorem SettlesTo.lu_rx {e t : State} (h : SettlesTo e t) : t.lu.rx = e.lu.rx := by rw [h.frame]

theorem SettlesTo.lu_rxFrame {e t : State} (h : SettlesTo e t) : t.lu.rxFrame = e.lu.rxFrame := by rw [h.frame]

theorem SettlesTo.lu_rxRead {e t : State} (h : SettlesTo e t) : t.lu.rxRead = e.lu.rxRead := by rw [h.frame]

theorem SettlesTo.lu_rxFailed {e t : State} (h : SettlesTo e t) : t.lu.rxFailed = e.lu.rxFailed := by rw [h.frame]

theorem SettlesTo.lu_rxTimebase {e t : State} (h : SettlesTo e t) : t.lu.rxTimebase = e.lu.rxTimebase := by rw [h.frame]

theorem SettlesTo.lu_rxDominant {e t : State} (h : SettlesTo e t) : t.lu.rxDominant = e.lu.rxDominant := by rw [h.frame]

theorem SettlesTo.lu_vetoCount {e t : State} (h : SettlesTo e t) : t.lu.vetoCount = e.lu.vetoCount := by rw [h.frame]

theorem SettlesTo.lu_muted {e t : State} (h : SettlesTo e t) : t.lu.muted = e.lu.muted := by rw [h.frame]

theorem SettlesTo.lu_integrating {e t : State} (h : SettlesTo e t) : t.lu.integrating = e.lu.integrating := by rw [h.frame]

theorem SettlesTo.lu_clock {e t : State} (h : SettlesTo e t) : t.lu.clock = e.lu.clock := by rw [h.frame]

end Sys2Proof.Machine
end

