-- ==== Sys2Proof/Laws/Ops.lean ====
section
/-! SUPPORT. Each shared operation of Machine/Ops.lean as updates of whole fields, so that a later proof rewrites with
one equation and the field lemmas of Laws/State.lean do the rest. -/

namespace Sys2Proof.Machine

/-! ## Notifications -/

theorem NoteUnit.arrive_irq (n : NoteUnit) (x : Note) : (n.arrive x).irq = n.irq := by
  unfold NoteUnit.arrive; split <;> rfl

theorem NoteUnit.arriveAll_irq (xs : List Note) : ∀ n : NoteUnit, (n.arriveAll xs).irq = n.irq := by
  induction xs with
  | nil => intro n; rfl
  | cons x xs ih => intro n; exact (ih (n.arrive x)).trans (n.arrive_irq x)

theorem NoteUnit.arriveAll_append (xs ys : List Note) (n : NoteUnit) :
    n.arriveAll (xs ++ ys) = (n.arriveAll xs).arriveAll ys := by
  simp [NoteUnit.arriveAll, List.foldl_append]

/-- A record arriving keeps the bounds of R178. -/
theorem NoteUnit.arrive_bounds (n : NoteUnit) (x : Note) (h : n.queue.length ≤ 32 ∧ n.dropped ≤ 255) :
    (n.arrive x).queue.length ≤ 32 ∧ (n.arrive x).dropped ≤ 255 := by
  unfold NoteUnit.arrive
  split
  · rename_i hl
    simp only [Config.noteQueueSize] at hl
    exact ⟨by simp; omega, h.2⟩
  · exact ⟨h.1, by simp only []; omega⟩

theorem State.note_eq (s : State) (x : Note) : s.note x = s.setNu (s.nu.arrive x) := rfl

/-- Notes made one after the other are one update of the notification unit. -/
theorem State.notes_foldl {α : Type} (f : α → Note) (xs : List α) : ∀ s : State,
    xs.foldl (fun s x => s.note (f x)) s = s.setNu (s.nu.arriveAll (xs.map f)) := by
  induction xs with
  | nil => intro s; rfl
  | cons x xs ih => intro s; simp only [List.foldl_cons, ih, List.map_cons]; rfl

/-! ## Requests -/

theorem State.completeRequest_found (s : State) (t : Fin 16) (o : ReqOutcome) (q : Request)
    (h : s.requests.find? (fun q => q.tag == t) = some q) :
    s.completeRequest t o
      = (s.setRequests (s.requests.filter (fun q => q.tag != t))).setNu (s.nu.arrive (.done t o q.r)) := by
  simp [State.completeRequest, h, State.note_eq]

theorem State.completeRequest_absent (s : State) (t : Fin 16) (o : ReqOutcome)
    (h : s.requests.find? (fun q => q.tag == t) = none) : s.completeRequest t o = s := by
  simp [State.completeRequest, h]

/-- The line unit after the requests chosen by `p` are cancelled. -/
theorem State.cancelRequests_eq (s : State) (p : Request → Bool) :
    ∃ l, s.cancelRequests p = ((s.setLu { s.lu with current := l }).setRequests
      (s.requests.filter (fun q => !p q))).setNu
        (s.nu.arriveAll ((s.requests.filter p).map (fun q => .done q.tag .cancelled q.r))) := by
  refine ⟨s.lu.current.map (fun a => if (match a.source with
    | .host t => (s.requests.filter p).any (fun q => q.tag == t)
    | _ => false) then { a with withdrawn := true } else a), ?_⟩
  unfold State.cancelRequests
  simp only [State.withdrawAttempt_eq, State.notes_foldl, State.setRequests_nu, State.setLu_nu]
  try rfl

/-! ## Surrender set -/

theorem State.surrenderAdd_eq (s : State) (r : Resource) (m : SurrenderMark) :
    s.surrenderAdd r m = s.setTu { s.tu with 
      surrender := (if s.surrendering r then s.tu.surrender
        else insertSurrender { r := r, mark := m, count := 0 } s.tu.surrender) } := by
  unfold State.surrenderAdd; split <;> simp_all [State.setTu]

theorem State.surrenderRemove_eq (s : State) (r : Resource) :
    s.surrenderRemove r = ((s.withdrawAttempt (fun src => src == .surrender r)).setTu
      { s.tu with surrender := s.tu.surrender.filter (fun m => m.r != r) }) := by
  simp [State.surrenderRemove, State.withdrawAttempt_eq]

theorem insertSurrender_mem (x y : SurrenderItem) (xs : List SurrenderItem) :
    y ∈ insertSurrender x xs ↔ y = x ∨ y ∈ xs := by
  induction xs with
  | nil => simp [insertSurrender]
  | cons z zs ih =>
    unfold insertSurrender
    split
    · simp
    · simp only [List.mem_cons, ih]
      constructor
      · rintro (rfl | rfl | h) <;> simp_all
      · rintro (rfl | rfl | h) <;> simp_all

/-- A new member is found under its resource, and no other resource is looked up differently. -/
theorem insertSurrender_find (x : SurrenderItem) (r : Resource) (xs : List SurrenderItem)
    (h : ∀ y ∈ xs, y.r ≠ x.r) :
    (insertSurrender x xs).find? (fun m => m.r == r) = if x.r = r then some x else xs.find? (fun m => m.r == r) := by
  induction xs with
  | nil => by_cases hr : x.r = r <;> simp [insertSurrender, hr]
  | cons z zs ih =>
    have hz : z.r ≠ x.r := h z (by simp)
    have hs : ∀ y ∈ zs, y.r ≠ x.r := fun y hy => h y (by simp [hy])
    unfold insertSurrender
    split
    · by_cases hr : x.r = r <;> simp [hr]
    · by_cases hr : x.r = r
      · have : z.r ≠ r := hr ▸ hz
        simp [hr, this, ih hs]
      · by_cases hzr : z.r = r <;> simp [hr, hzr, ih hs]

theorem State.surrendering_iff (s : State) (r : Resource) :
    s.surrendering r = true ↔ ∃ m ∈ s.tu.surrender, m.r = r := by
  simp [State.surrendering]

/-- After an entry to the set: a member keeps its mark, the new one has the mark given. -/
theorem State.surrenderAdd_mark (s : State) (r r' : Resource) (m : SurrenderMark) :
    (s.surrenderAdd r m).surrenderMark r' =
      if r = r' ∧ s.surrendering r = false then some m else s.surrenderMark r' := by
  rw [State.surrenderAdd_eq]
  unfold State.surrenderMark
  simp only [State.setTu_tu]
  rcases hs : s.surrendering r with _ | _
  · have hn : ∀ y ∈ s.tu.surrender, y.r ≠ r := by
      intro y hy he
      have := (State.surrendering_iff s r).mpr ⟨y, hy, he⟩
      simp_all
    have hf := insertSurrender_find { r := r, mark := m, count := 0 } r' s.tu.surrender hn
    simp only [Bool.false_eq_true, if_false, hf]
    by_cases hr : r = r' <;> simp [hr]
  · simp

theorem State.surrendering_eq_mark (s : State) (r : Resource) :
    s.surrendering r = (s.surrenderMark r).isSome := by
  unfold State.surrendering State.surrenderMark
  induction s.tu.surrender with
  | nil => rfl
  | cons x xs ih => by_cases h : x.r = r <;> simp_all

/-! ## Own-hold records and verdicts -/

theorem State.closeHold_eq (s : State) (r : Resource) :
    s.closeHold r = (s.withdrawAttempt (fun src => src == .renew r)).setTu
      { s.tu with holds := s.tu.holds.filter (fun h => h.r != r) } := by
  simp [State.closeHold, State.withdrawAttempt_eq]

/-- With no attempt on the line no verdict is in one. -/
theorem State.verdictInAttempt_off (s : State) (h : s.lu.sending = false) (v : Verdict) : s.verdictInAttempt v = false := by
  simp [State.verdictInAttempt, h]

/-- With no attempt on the line every verdict that is named leaves the queue (R115). -/
theorem State.dropVerdicts_off (s : State) (h : s.lu.sending = false) (p : Verdict → Bool) :
    s.dropVerdicts p = s.setTu { s.tu with verdicts := s.tu.verdicts.filter (fun i => !p i.verdict) } := by
  simp [State.dropVerdicts, s.verdictInAttempt_off h]

/-- What a withdrawal of every verdict leaves (R115): the one whose attempt has begun, and its watch's verdict state. -/
theorem State.withdrawVerdicts_eq (s : State) :
    s.withdrawVerdicts = s.setTu { s.tu with
      verdicts := s.tu.verdicts.filter (fun i => s.verdictInAttempt i.verdict)
      expiry := s.tu.expiry.map (fun w =>
        { w with queued := w.queued && s.verdictInAttempt (.expire w.r w.holder w.gen) })
      presence := s.tu.presence.map (fun w =>
        { w with queued := w.queued && s.verdictInAttempt (.evict w.station w.inc) }) } := rfl

/-- With no attempt on the line no verdict is left (R115, R120). -/
theorem State.withdrawVerdicts_off (s : State) (h : s.lu.sending = false) :
    s.withdrawVerdicts = s.setTu { s.tu with
      verdicts := []
      expiry := s.tu.expiry.map (fun w => { w with queued := false })
      presence := s.tu.presence.map (fun w => { w with queued := false }) } := by
  have : s.tu.verdicts.filter (fun _ => false) = [] := by simp
  simp [State.withdrawVerdicts_eq, s.verdictInAttempt_off h, this]

theorem State.stopPresence_eq (s : State) :
    s.stopPresence = (s.withdrawAttempt (fun src => src == .presence)).setTu
      { s.tu with presenceTimer := none, presenceOffer := none } := by
  simp [State.stopPresence, State.withdrawAttempt_eq]

/-! ## Clearing and the control frame queue -/

theorem State.clearReplica_eq (s : State) :
    s.clearReplica = (((s.withdrawAttempt (fun _ => true)).setReplica Replica.cleared).setTu
      TimerUnit.afterReset).setSc { s.sc with control := [], shadow := none } := by
  simp [State.clearReplica, State.withdrawAttempt_eq]

theorem State.withdrawMembership_eq (s : State) :
    s.withdrawMembership = (s.withdrawAttempt (fun src => match src with
        | .control k => k.isMembership
        | _ => false)).setSc { s.sc with control := s.sc.control.filter (fun c => !c.kind.isMembership) } := by
  simp only [State.withdrawMembership, State.withdrawAttempt_eq, State.setLu_sc]
  try rfl

theorem State.queueMembership_eq (s : State) (k : ControlKind) :
    s.queueMembership k = (s.withdrawAttempt (fun src => match src with
        | .control k => k.isMembership
        | _ => false)).setSc { s.sc with
          control := s.sc.control.filter (fun c => !c.kind.isMembership) ++ [{ kind := k, count := 0 }] } := by
  simp only [State.queueMembership, State.withdrawMembership_eq, State.withdrawAttempt_eq, State.setSc_sc]
  rfl

/-! ## A response after `settle` -/

theorem State.answer_eq (s : State) (st : Status) (bytes : List Byte) :
    s.answer st bytes = s.answered (st.byte :: bytes) := rfl

/-- What follows at once does not turn on the response. -/
theorem SettlesTo.withAnswer {e t : State} (h : SettlesTo e t) (bytes : List Byte) :
    SettlesTo (e.answered bytes) (t.answered bytes) where
  frame := by
    have := h.frame
    unfold State.answered
    rw [this]
  holds := h.holds
  attempt := h.attempt
  transmitter := h.transmitter
  lines := h.lines
  irq := h.irq

/-- What follows at once does not turn on the port. -/
theorem SettlesTo.withPort {e t : State} (h : SettlesTo e t) (x : PortState) : SettlesTo (e.setPort x) (t.setPort x) where
  frame := by
    have := h.frame
    unfold State.setPort
    rw [this]
  holds := h.holds
  attempt := h.attempt
  transmitter := h.transmitter
  lines := h.lines
  irq := h.irq

/-- A command settled and then answered settles to the answered effect. -/
theorem State.settle_answer (s : State) (st : Status) (bytes : List Byte) :
    SettlesTo (s.answered (st.byte :: bytes)) (s.settle.answer st bytes) :=
  s.settle_settlesTo.withAnswer _

/-! ## Taking a command -/

theorem takeCommand_open {s : State} (f : State → State) (h : s.portOpen = true) : takeCommand s f = .next (f s) := by
  simp [takeCommand, h]

theorem takeCommand_closed {s : State} (f : State → State) (h : s.portOpen = false) : takeCommand s f = .next s := by
  simp [takeCommand, h]

end Sys2Proof.Machine
end

