-- ==== Sys2Proof/Laws/Closure.lean ====
section
/-! SUPPORT. Closure: a property of states that every single update of the block operations keeps is kept by each of
these operations. An invariant that reads few fields is proved over a step by checking the few updates it reads. -/

namespace Sys2Proof.Machine

/-- The updates that the operations of Ops, Station, Replica, Line and LineEvents are made of. A station controller update leaves the
catch-up queue, empties it, or appends one record to fewer than 24; a request queue update filters it or keeps tags and
resources; the notification unit changes by a record arriving or by IRQ#. -/
structure Closed (P : State → Prop) : Prop where
  lu : ∀ s x, P s → P (s.setLu x)
  tu : ∀ s x, P s → P (s.setTu x)
  replica : ∀ s x, P s → P (s.setReplica x)
  kp : ∀ s x, P s → P (s.setKp x)
  free : ∀ s x, P s → P (s.setFreeIndex x)
  note : ∀ s x, P s → P (s.note x)
  filter : ∀ (s : State) p, P s → P (s.setRequests (s.requests.filter p))
  requests : ∀ (s : State) (f : Request → Request), (∀ q, (f q).tag = q.tag ∧ (f q).r = q.r) → P s →
    P (s.setRequests (s.requests.map f))
  sc : ∀ s x, (x.catchUp = s.sc.catchUp ∨ x.catchUp = []
      ∨ ∃ f, s.sc.catchUp.length < 24 ∧ x.catchUp = s.sc.catchUp ++ [f]) → P s → P (s.setSc x)
  active : ∀ (s : State) x, P s → P (s.setGou { s.gou with active := x })
  irq : ∀ (s : State) x, P s → P (s.setNu { s.nu with irq := x })

variable {P : State → Prop}

/-- A station controller update that leaves the catch-up queue. -/
theorem Closed.scSame (C : Closed P) (s : State) (x : StationCtl) (h : x.catchUp = s.sc.catchUp) :
    P s → P (s.setSc x) := C.sc s x (Or.inl h)

/-- One that empties it. -/
theorem Closed.scEmpty (C : Closed P) (s : State) (x : StationCtl) (h : x.catchUp = []) :
    P s → P (s.setSc x) := C.sc s x (Or.inr (Or.inl h))

/-- A fold of operations that keep `P` keeps it. -/
theorem Closed.foldl {α : Type} (f : State → α → State) (hf : ∀ s a, P s → P (f s a)) (xs : List α) :
    ∀ s, P s → P (xs.foldl f s) := by
  induction xs with
  | nil => intro s h; exact h
  | cons x xs ih => intro s h; exact ih _ (hf _ _ h)


/-! ## Operations of Ops -/

theorem Closed.withdrawAttempt (C : Closed P) (s : State) (p : Source → Bool) : P s → P (s.withdrawAttempt p) := by
  intro h
  unfold State.withdrawAttempt
  try simp only []
  repeat (first | with_reducible assumption | with_reducible apply C.lu | split | rfl)

theorem Closed.completeRequest (C : Closed P) (s : State) (t : Fin 16) (o : ReqOutcome) : P s → P (s.completeRequest t o) := by
  intro h
  unfold State.completeRequest
  split
  · exact C.note _ _ (C.filter _ _ h)
  · exact h

theorem Closed.notes (C : Closed P) (s : State) (xs : List Note) : P s → P (s.setNu (s.nu.arriveAll xs)) := by
  induction xs generalizing s with
  | nil => intro h; exact h
  | cons x xs ih => intro h; exact ih (s.note x) (C.note s x h)

theorem Closed.cancelRequests (C : Closed P) (s : State) (p : Request → Bool) : P s → P (s.cancelRequests p) := by
  intro h
  unfold State.cancelRequests
  rw [State.notes_foldl]
  refine C.notes _ _ ?_
  have := C.filter (s.withdrawAttempt _) (fun q => !p q) (C.withdrawAttempt s
    (fun src => match src with | .host t => (s.requests.filter p).any (fun q => q.tag == t) | _ => false) h)
  rw [State.withdrawAttempt_eq] at this ⊢
  exact this

theorem Closed.surrenderAdd (C : Closed P) (s : State) (r : Resource) (m : SurrenderMark) : P s → P (s.surrenderAdd r m) := by
  intro h
  unfold State.surrenderAdd
  try simp only []
  repeat (first | with_reducible assumption | with_reducible apply C.tu | split | rfl)

theorem Closed.surrenderRemove (C : Closed P) (s : State) (r : Resource) : P s → P (s.surrenderRemove r) := by
  intro h
  unfold State.surrenderRemove
  try simp only []
  repeat (first | with_reducible assumption | with_reducible apply C.tu | with_reducible apply C.withdrawAttempt | split | rfl)

theorem Closed.surrenderOnGrant (C : Closed P) (s : State) (r : Resource) : P s → P (s.surrenderOnGrant r) := by
  intro h
  unfold State.surrenderOnGrant
  try simp only []
  repeat (first | with_reducible assumption | with_reducible apply C.tu | with_reducible apply C.surrenderAdd | split | rfl)

theorem Closed.openHold (C : Closed P) (s : State) (r : Resource) (g : Word16) : P s → P (s.openHold r g) := by
  intro h
  unfold State.openHold
  try simp only []
  repeat (first | with_reducible assumption | with_reducible apply C.tu | split | rfl)

theorem Closed.renewHold (C : Closed P) (s : State) (r : Resource) (g : Word16) : P s → P (s.renewHold r g) := by
  intro h
  unfold State.renewHold
  try simp only []
  repeat (first | with_reducible assumption | with_reducible apply C.tu | split | rfl)

theorem Closed.closeHold (C : Closed P) (s : State) (r : Resource) : P s → P (s.closeHold r) := by
  intro h
  unfold State.closeHold
  try simp only []
  repeat (first | with_reducible assumption | with_reducible apply C.tu | with_reducible apply C.withdrawAttempt | split | rfl)

theorem Closed.updateHold (C : Closed P) (s : State) (r : Resource) (f : OwnHold → OwnHold) : P s → P (s.updateHold r f) := by
  intro h
  unfold State.updateHold
  try simp only []
  repeat (first | with_reducible assumption | with_reducible apply C.tu | split | rfl)

theorem Closed.dropVerdicts (C : Closed P) (s : State) (p : Verdict → Bool) : P s → P (s.dropVerdicts p) := by
  intro h
  unfold State.dropVerdicts
  try simp only []
  repeat (first | with_reducible assumption | with_reducible apply C.tu | with_reducible apply C.withdrawAttempt | split | rfl)

theorem Closed.openExpiry (C : Closed P) (s : State) (r : Resource) (v : Station) (g : Word16) : P s → P (s.openExpiry r v g) := by
  intro h
  unfold State.openExpiry
  try simp only []
  repeat (first | with_reducible assumption | with_reducible apply C.tu | split | rfl)

theorem Closed.restartExpiry (C : Closed P) (s : State) (r : Resource) (v : Station) (g : Word16) : P s → P (s.restartExpiry r v g) := by
  intro h
  unfold State.restartExpiry
  try simp only []
  repeat (first | with_reducible assumption | with_reducible apply C.tu | with_reducible apply C.dropVerdicts | split | rfl)

theorem Closed.closeExpiry (C : Closed P) (s : State) (r : Resource) (v : Station) : P s → P (s.closeExpiry r v) := by
  intro h
  unfold State.closeExpiry
  try simp only []
  repeat (first | with_reducible assumption | with_reducible apply C.tu | with_reducible apply C.dropVerdicts | split | rfl)

theorem Closed.openPresence (C : Closed P) (s : State) (v : Station) (i : Byte) : P s → P (s.openPresence v i) := by
  intro h
  unfold State.openPresence
  try simp only []
  repeat (first | with_reducible assumption | with_reducible apply C.tu | split | rfl)

theorem Closed.closePresence (C : Closed P) (s : State) (v : Station) : P s → P (s.closePresence v) := by
  intro h
  unfold State.closePresence
  try simp only []
  repeat (first | with_reducible assumption | with_reducible apply C.tu | with_reducible apply C.dropVerdicts | split | rfl)

theorem Closed.hearStation (C : Closed P) (s : State) (v : Station) (i : Byte) : P s → P (s.hearStation v i) := by
  intro h
  unfold State.hearStation
  try simp only []
  repeat (first | with_reducible assumption | with_reducible apply C.tu | with_reducible apply C.dropVerdicts | split | rfl)

theorem Closed.queueVerdict (C : Closed P) (s : State) (v : Verdict) : P s → P (s.queueVerdict v) := by
  intro h
  unfold State.queueVerdict
  try simp only []
  repeat (first | with_reducible assumption | with_reducible apply C.tu | split | rfl)

theorem Closed.offerExpire (C : Closed P) (s : State) (w : ExpiryWatch) : P s → P (s.offerExpire w) := by
  intro h
  unfold State.offerExpire
  try simp only []
  repeat (first | with_reducible assumption | with_reducible apply C.queueVerdict | with_reducible apply C.tu | split | rfl)

theorem Closed.offerEvict (C : Closed P) (s : State) (w : PresenceWatch) : P s → P (s.offerEvict w) := by
  intro h
  unfold State.offerEvict
  try simp only []
  repeat (first | with_reducible assumption | with_reducible apply C.queueVerdict | with_reducible apply C.tu | split | rfl)

theorem Closed.offerOverdue (C : Closed P) (s : State) : P s → P (s.offerOverdue) := by
  intro h
  exact Closed.foldl _ (fun s w => C.offerEvict s w) _ _ (Closed.foldl _ (fun s w => C.offerExpire s w) _ _ h)

theorem Closed.withdrawVerdicts (C : Closed P) (s : State) : P s → P (s.withdrawVerdicts) := by
  intro h
  unfold State.withdrawVerdicts
  try simp only []
  repeat (first | with_reducible assumption | with_reducible apply C.tu | with_reducible apply C.dropVerdicts | split | rfl)

theorem Closed.endVerdict (C : Closed P) (s : State) (v : Verdict) : P s → P (s.endVerdict v) := by
  intro h
  unfold State.endVerdict
  try simp only []
  repeat (first | with_reducible assumption | with_reducible apply C.tu | split | rfl)

theorem Closed.restartWatchOf (C : Closed P) (s : State) (v : Verdict) : P s → P (s.restartWatchOf v) := by
  intro h
  unfold State.restartWatchOf
  try simp only []
  repeat (first | with_reducible assumption | with_reducible apply C.tu | split | rfl)

theorem Closed.requeueVerdict (C : Closed P) (s : State) (v : Verdict) : P s → P (s.requeueVerdict v) := by
  intro h
  unfold State.requeueVerdict
  try simp only []
  repeat (first | with_reducible assumption | with_reducible apply C.offerExpire | with_reducible apply C.offerEvict | split | rfl)

theorem Closed.slotCreated (C : Closed P) (s : State) (r : Resource) (v : Station) (g : Word16) : P s → P (s.slotCreated r v g) := by
  intro h
  unfold State.slotCreated
  try simp only []
  repeat (first | with_reducible assumption | with_reducible apply C.surrenderOnGrant | with_reducible apply C.openHold | with_reducible apply C.openExpiry | split | rfl)

theorem Closed.slotRenewed (C : Closed P) (s : State) (r : Resource) (v : Station) (g : Word16) : P s → P (s.slotRenewed r v g) := by
  intro h
  unfold State.slotRenewed
  try simp only []
  repeat (first | with_reducible assumption | with_reducible apply C.renewHold | with_reducible apply C.restartExpiry | split | rfl)

theorem Closed.slotRemoved (C : Closed P) (s : State) (r : Resource) (v : Station) : P s → P (s.slotRemoved r v) := by
  intro h
  unfold State.slotRemoved
  try simp only []
  repeat (first | with_reducible assumption | with_reducible apply C.closeHold | with_reducible apply C.closeExpiry | split | rfl)

theorem Closed.stopPresence (C : Closed P) (s : State) : P s → P (s.stopPresence) := by
  intro h
  unfold State.stopPresence
  try simp only []
  repeat (first | with_reducible assumption | with_reducible apply C.tu | with_reducible apply C.withdrawAttempt | split | rfl)

theorem Closed.startPresence (C : Closed P) (s : State) : P s → P (s.startPresence) := by
  intro h
  unfold State.startPresence
  try simp only []
  repeat (first | with_reducible assumption | with_reducible apply C.tu | split | rfl)

theorem Closed.clearReplica (C : Closed P) (s : State) : P s → P (s.clearReplica) := by
  intro h
  unfold State.clearReplica
  try simp only []
  repeat (first | with_reducible assumption | with_reducible apply C.scSame | with_reducible apply C.tu | with_reducible apply C.replica | with_reducible apply C.withdrawAttempt | split | rfl)

theorem Closed.withdrawMembership (C : Closed P) (s : State) : P s → P (s.withdrawMembership) := by
  intro h
  unfold State.withdrawMembership
  try simp only []
  repeat (first | with_reducible assumption | with_reducible apply C.scSame | with_reducible apply C.withdrawAttempt | split | rfl)

theorem Closed.queueMembership (C : Closed P) (s : State) (k : ControlKind) : P s → P (s.queueMembership k) := by
  intro h
  unfold State.queueMembership
  try simp only []
  repeat (first | with_reducible assumption | with_reducible apply C.scSame | with_reducible apply C.withdrawMembership | split | rfl)

theorem Closed.queueRefusal (C : Closed P) (s : State) (v : Station) (a : Fin 4) : P s → P (s.queueRefusal v a) := by
  intro h
  unfold State.queueRefusal
  try simp only []
  repeat (first | with_reducible assumption | with_reducible apply C.scSame | split | rfl)

theorem Closed.removeControl (C : Closed P) (s : State) (k : ControlKind) : P s → P (s.removeControl k) := by
  intro h
  unfold State.removeControl
  try simp only []
  repeat (first | with_reducible assumption | with_reducible apply C.scSame | split | rfl)

theorem Closed.lineOff (C : Closed P) (s : State) : P s → P (s.lineOff) := by
  intro h
  unfold State.lineOff
  try simp only []
  repeat (first | with_reducible assumption | with_reducible apply C.lu | split | rfl)

theorem Closed.lineJoinStart (C : Closed P) (s : State) (b : Bool) : P s → P (s.lineJoinStart b) := by
  intro h
  unfold State.lineJoinStart
  try simp only []
  repeat (first | with_reducible assumption | with_reducible apply C.lu | split | rfl)

theorem Closed.refreshRenewals (C : Closed P) (s : State) : P s → P (s.refreshRenewals) := by
  intro h
  unfold State.refreshRenewals
  try simp only []
  repeat (first | with_reducible assumption | with_reducible apply C.tu | with_reducible apply C.withdrawAttempt | split | rfl)

theorem Closed.refreshTx (C : Closed P) (s : State) : P s → P (s.refreshTx) := by
  intro h
  unfold State.refreshTx
  try simp only []
  repeat (first | with_reducible assumption | with_reducible apply C.lu | split | rfl)

theorem Closed.refreshLines (C : Closed P) (s : State) : P s → P (s.refreshLines) := by
  intro h
  unfold State.refreshLines
  try simp only []
  repeat (first | with_reducible assumption | with_reducible apply C.active | split | rfl)

theorem Closed.refreshIrq (C : Closed P) (s : State) : P s → P (s.refreshIrq) := by
  intro h
  unfold State.refreshIrq
  try simp only []
  repeat (first | with_reducible assumption | with_reducible apply C.irq | split | rfl)

theorem Closed.settle (C : Closed P) (s : State) : P s → P (s.settle) := by
  intro h
  unfold State.settle
  try simp only []
  repeat (first | with_reducible assumption | with_reducible apply C.refreshIrq | with_reducible apply C.refreshLines | with_reducible apply C.refreshTx | with_reducible apply C.refreshRenewals | split | rfl)

/-! ## Operations of Station -/

theorem Closed.restartWatches (C : Closed P) (s : State) : P s → P (s.restartWatches) := by
  intro h
  unfold State.restartWatches
  try simp only []
  repeat (first | with_reducible assumption | with_reducible apply C.tu | with_reducible apply C.withdrawVerdicts | split | rfl)

theorem Closed.permitStart (C : Closed P) (s : State) : P s → P (s.permitStart) := by
  intro h
  unfold State.permitStart
  try simp only []
  repeat (first | with_reducible assumption | with_reducible apply C.kp | split | rfl)

theorem Closed.enterMember (C : Closed P) (s : State) : P s → P (s.enterMember) := by
  intro h
  unfold State.enterMember
  try simp only []
  repeat (first | with_reducible assumption | with_reducible apply C.permitStart | with_reducible apply C.startPresence | with_reducible apply C.restartWatches | with_reducible apply C.scSame | split | rfl)

theorem Closed.endMember (C : Closed P) (s : State) : P s → P (s.endMember) := by
  intro h
  unfold State.endMember
  try simp only []
  repeat (first | with_reducible assumption | with_reducible apply C.kp | with_reducible apply C.cancelRequests | split | rfl)

theorem Closed.joinStart (C : Closed P) (s : State) : P s → P (s.joinStart) := by
  intro h
  unfold State.joinStart
  try simp only []
  repeat (first | with_reducible assumption | with_reducible apply C.lineJoinStart | with_reducible apply C.queueMembership | with_reducible apply C.scEmpty | with_reducible apply C.clearReplica | split | rfl)

theorem Closed.enterFaulted (C : Closed P) (s : State) (c : FaultCause) : P s → P (s.enterFaulted c) := by
  intro h
  unfold State.enterFaulted
  try simp only []
  repeat (first | with_reducible assumption | with_reducible apply C.note | with_reducible apply C.lineOff | with_reducible apply C.scEmpty | with_reducible apply C.clearReplica | with_reducible apply C.endMember | split | rfl)

theorem Closed.failedAttempt (C : Closed P) (s : State) (b : Bool) : P s → P (s.failedAttempt b) := by
  intro h
  have h1 : P ((if b then s.clearReplica else s).stopPresence.withdrawMembership) := by
    refine C.withdrawMembership _ (C.stopPresence _ ?_)
    split
    · exact C.clearReplica s h
    · exact h
  unfold State.failedAttempt
  generalize (if b then s.clearReplica else s).stopPresence.withdrawMembership = s1 at h1 ⊢
  dsimp only
  split
  · refine C.lineJoinStart _ _ (C.queueMembership _ _ ?_)
    with_reducible apply C.scSame
    · rfl
    · with_reducible apply C.scEmpty
      · rfl
      · exact h1
  · refine C.enterFaulted _ _ ?_
    with_reducible apply C.scEmpty
    · rfl
    · exact h1

theorem Closed.ownJoinAccepted (C : Closed P) (s : State) : P s → P (s.ownJoinAccepted) := by
  intro h
  unfold State.ownJoinAccepted
  try simp only []
  repeat (first | with_reducible assumption | with_reducible apply C.startPresence | with_reducible apply C.scSame | split | rfl)

theorem Closed.found (C : Closed P) (s : State) : P s → P (s.found) := by
  intro h
  unfold State.found
  try simp only []
  repeat (first | with_reducible assumption | with_reducible apply C.note | with_reducible apply C.enterMember | with_reducible apply C.scEmpty | with_reducible apply C.replica | split | rfl)

theorem Closed.enterLeaving (C : Closed P) (s : State) (i : LeaveIntent) (x : LeaveReplica) : P s → P (s.enterLeaving i x) := by
  intro h
  unfold State.enterLeaving
  try simp only []
  repeat (first | with_reducible assumption | with_reducible apply C.queueMembership | with_reducible apply C.scEmpty | with_reducible apply C.tu | with_reducible apply C.stopPresence | with_reducible apply C.withdrawVerdicts | with_reducible apply C.endMember | split | rfl)

theorem Closed.leavingEnd (C : Closed P) (s : State) : P s → P (s.leavingEnd) := by
  intro h
  unfold State.leavingEnd
  try simp only []
  repeat (first | with_reducible assumption | with_reducible apply C.note | with_reducible apply C.lineOff | with_reducible apply C.scSame | with_reducible apply C.clearReplica | with_reducible apply C.joinStart | split | rfl)

theorem Closed.divergence (C : Closed P) (s : State) : P s → P (s.divergence) := by
  intro h
  unfold State.divergence
  try simp only []
  repeat (first | with_reducible assumption | with_reducible apply C.note | with_reducible apply C.enterLeaving | split | rfl)

theorem Closed.ownEviction (C : Closed P) (s : State) : P s → P (s.ownEviction) := by
  intro h
  unfold State.ownEviction
  try simp only []
  repeat (first | with_reducible assumption | with_reducible apply C.note | with_reducible apply C.joinStart | with_reducible apply C.endMember | with_reducible apply C.leavingEnd | split | rfl)

theorem Closed.takeShadow (C : Closed P) (s : State) (j : Station) (a : Fin 4) : P s → P (s.takeShadow j a) := by
  intro h
  unfold State.takeShadow
  try simp only []
  repeat (first | with_reducible assumption | with_reducible apply C.scSame | split | rfl)

theorem Closed.endDuty (C : Closed P) (s : State) : P s → P (s.endDuty) := by
  intro h
  unfold State.endDuty
  try simp only []
  repeat (first | with_reducible assumption | with_reducible apply C.scSame | with_reducible apply C.withdrawAttempt | split | rfl)

theorem Closed.segmentAccepted (C : Closed P) (s : State) (i : Nat) : P s → P (s.segmentAccepted i) := by
  intro h
  unfold State.segmentAccepted
  try simp only []
  repeat (first | with_reducible assumption | with_reducible apply C.scSame | split | rfl)

theorem Closed.segmentAbandoned (C : Closed P) (s : State) : P s → P (s.segmentAbandoned) := by
  intro h
  unfold State.segmentAbandoned
  try simp only []
  repeat (first | with_reducible assumption | with_reducible apply C.scSame | split | rfl)

theorem Closed.readyAbandoned (C : Closed P) (s : State) : P s → P (s.readyAbandoned) := by
  intro h
  unfold State.readyAbandoned
  try simp only []
  repeat (first | with_reducible assumption | with_reducible apply C.queueMembership | with_reducible apply C.failedAttempt | with_reducible apply C.scSame | split | rfl)

theorem Closed.surrenderAll (C : Closed P) (s : State) : P s → P (s.surrenderAll) := by
  intro h
  unfold State.surrenderAll
  refine Closed.foldl _ ?_ _ _ (Closed.foldl _ ?_ _ _ h)
  all_goals (intro s r h; split <;> first | exact C.surrenderAdd _ _ _ h | exact h)

theorem Closed.permitLapse (C : Closed P) (s : State) (c : LapseCause) : P s → P (s.permitLapse c) := by
  intro h
  unfold State.permitLapse
  try simp only []
  repeat (first | with_reducible assumption | with_reducible apply C.note | with_reducible apply C.surrenderAll | with_reducible apply C.cancelRequests | with_reducible apply C.kp | split | rfl)

theorem Closed.permitRestore (C : Closed P) (s : State) : P s → P (s.permitRestore) := by
  intro h
  unfold State.permitRestore
  try simp only []
  repeat (first | with_reducible assumption | with_reducible apply C.note | with_reducible apply C.kp | split | rfl)

theorem Closed.lapseHold (C : Closed P) (s : State) (r : Resource) : P s → P (s.lapseHold r) := by
  intro h
  unfold State.lapseHold
  try simp only []
  repeat (first | with_reducible assumption | with_reducible apply C.note | with_reducible apply C.surrenderAdd | with_reducible apply C.updateHold | split | rfl)

theorem Closed.lapseOverdue (C : Closed P) (s : State) : P s → P (s.lapseOverdue) := by
  intro h
  unfold State.lapseOverdue
  refine Closed.foldl _ ?_ _ _ h
  intro s r h; split <;> first | exact C.lapseHold _ _ h | exact h

/-! ## Operations of Replica -/

theorem Closed.setEntry (C : Closed P) (s : State) (r : Resource) (e : Entry) : P s → P (s.setEntry r e) := by
  intro h
  unfold State.setEntry
  try simp only []
  repeat (first | with_reducible assumption | with_reducible apply C.replica | split | rfl)

theorem Closed.setRosterEntry (C : Closed P) (s : State) (v : Station) (e : RosterEntry) : P s → P (s.setRosterEntry v e) := by
  intro h
  unfold State.setRosterEntry
  try simp only []
  repeat (first | with_reducible assumption | with_reducible apply C.replica | split | rfl)

theorem Closed.advanceTsn (C : Closed P) (s : State) : P s → P (s.advanceTsn) := by
  intro h
  unfold State.advanceTsn
  try simp only []
  repeat (first | with_reducible assumption | with_reducible apply C.replica | split | rfl)

theorem Closed.reportGrants (C : Closed P) (s : State) (r : Resource) (gs : List Grant) : P s → P (s.reportGrants r gs) := by
  intro h
  unfold State.reportGrants
  refine Closed.foldl _ ?_ _ _ h
  intro s g h
  dsimp only
  split
  · exact C.note _ _ (C.slotCreated _ _ _ _ h)
  · exact C.slotCreated _ _ _ _ h

theorem Closed.promoteEntry (C : Closed P) (s : State) (r : Resource) (e : Entry) : P s → P (s.promoteEntry r e) := by
  intro h
  unfold State.promoteEntry
  try simp only []
  repeat (first | with_reducible assumption | with_reducible apply C.reportGrants | with_reducible apply C.setEntry | split | rfl)

theorem Closed.claimRule (C : Closed P) (s : State) (v : Station) (r : Resource) (m : LeaseMode) (w : Bool) : P s → P ((s.claimRule v r m w).1) := by
  intro h
  unfold State.claimRule
  try simp only []
  repeat (first | with_reducible assumption | with_reducible apply C.slotCreated | with_reducible apply C.setEntry | with_reducible apply C.surrenderAdd | split | rfl)

theorem Closed.releaseRule (C : Closed P) (s : State) (b : Bool) (v : Station) (r : Resource) (t : Tag) : P s → P ((s.releaseRule b v r t).1) := by
  intro h
  unfold State.releaseRule
  try simp only []
  repeat (first | with_reducible assumption | with_reducible apply C.promoteEntry | with_reducible apply C.note | with_reducible apply C.slotRemoved | split | rfl)

theorem Closed.withdrawRule (C : Closed P) (s : State) (b : Bool) (v : Station) (r : Resource) (t : Tag) : P s → P ((s.withdrawRule b v r t).1) := by
  intro h
  unfold State.withdrawRule
  try simp only []
  repeat (first | with_reducible assumption | with_reducible apply C.promoteEntry | with_reducible apply C.note | split | rfl)

theorem Closed.renewRule (C : Closed P) (s : State) (b : Bool) (v : Station) (r : Resource) : P s → P (s.renewRule b v r) := by
  intro h
  unfold State.renewRule
  try simp only []
  repeat (first | with_reducible assumption | with_reducible apply C.slotRenewed | with_reducible apply C.setEntry | with_reducible apply C.note | with_reducible apply C.closeHold | split | rfl)

theorem Closed.expireRule (C : Closed P) (s : State) (r : Resource) (v : Station) (g : Word16) : P s → P (s.expireRule r v g) := by
  intro h
  unfold State.expireRule
  try simp only []
  repeat (first | with_reducible assumption | with_reducible apply C.promoteEntry | with_reducible apply C.note | with_reducible apply C.surrenderRemove | with_reducible apply C.slotRemoved | split | rfl)

theorem Closed.deliver (C : Closed P) (s : State) (t : Tag) (r : Resource) (b : Bool) (o : ReqOutcome) : P s → P (s.deliver t r b o) := by
  intro h
  unfold State.deliver
  try simp only []
  repeat (first | with_reducible assumption | with_reducible apply C.completeRequest | with_reducible apply C.surrenderRemove | split | rfl)

theorem Closed.barRenewal (C : Closed P) (s : State) (r : Resource) : P s → P (s.barRenewal r) := by
  intro h
  unfold State.barRenewal
  try simp only []
  repeat (first | with_reducible assumption | with_reducible apply C.updateHold | split | rfl)

theorem Closed.ownVerdictEnds (C : Closed P) (s : State) (b : Bool) (v : Verdict) : P s → P (s.ownVerdictEnds b v) := by
  intro h
  unfold State.ownVerdictEnds
  try simp only []
  repeat (first | with_reducible assumption | with_reducible apply C.restartWatchOf | with_reducible apply C.endVerdict | split | rfl)

theorem Closed.endPairing (C : Closed P) (s : State) (x v : Station) : P s → P (s.endPairing x v) := by
  intro h
  unfold State.endPairing
  try simp only []
  repeat (first | with_reducible assumption | with_reducible apply C.endDuty | with_reducible apply C.setRosterEntry | split | rfl)

theorem Closed.clearPairings (C : Closed P) (s : State) (v : Station) : P s → P (s.clearPairings v) := by
  intro h
  unfold State.clearPairings
  try simp only []
  repeat (first | with_reducible assumption | with_reducible apply C.endPairing | split | rfl)

theorem Closed.removeFromTable (C : Closed P) (s : State) (v : Station) : P s → P (s.removeFromTable v) := by
  intro h
  unfold State.removeFromTable
  refine Closed.foldl _ ?_ _ _ (Closed.foldl _ ?_ _ _ h)
  all_goals
    intro s r h
    split
    · first | exact C.promoteEntry _ _ _ (C.slotRemoved _ _ _ h) | exact C.promoteEntry _ _ _ h
    · exact h

theorem Closed.dropOwnHolds (C : Closed P) (s : State) : P s → P (s.dropOwnHolds) := by
  intro h
  unfold State.dropOwnHolds
  try simp only []
  repeat (first | with_reducible assumption | with_reducible apply C.tu | with_reducible apply C.withdrawAttempt | split | rfl)

theorem Closed.removeStation (C : Closed P) (s : State) (v : Station) : P s → P (s.removeStation v) := by
  intro h
  unfold State.removeStation
  try simp only []
  repeat (first | with_reducible assumption | with_reducible apply C.dropOwnHolds | with_reducible apply C.closePresence | with_reducible apply C.setRosterEntry | with_reducible apply C.clearPairings | with_reducible apply C.removeFromTable | split | rfl)

theorem Closed.removeAndTell (C : Closed P) (s : State) (b : Bool) (v : Station) (c : MembershipCause) : P s → P (s.removeAndTell b v c) := by
  intro h
  unfold State.removeAndTell
  try simp only []
  repeat (first | with_reducible assumption | with_reducible apply C.note | with_reducible apply C.removeStation | split | rfl)

theorem Closed.joinRule (C : Closed P) (s : State) (b : Bool) (v : Station) (d : Word16) (a : Fin 4) : P s → P ((s.joinRule b v d a).1) := by
  intro h
  unfold State.joinRule
  try simp only []
  repeat (first | with_reducible assumption | with_reducible apply C.setRosterEntry | with_reducible apply C.openPresence | with_reducible apply C.removeAndTell | with_reducible apply C.queueRefusal | split | rfl)

theorem Closed.readyRule (C : Closed P) (s : State) (b : Bool) (v : Station) : P s → P (s.readyRule b v) := by
  intro h
  unfold State.readyRule
  try simp only []
  repeat (first | with_reducible assumption | with_reducible apply C.note | with_reducible apply C.setRosterEntry | with_reducible apply C.endPairing | split | rfl)

theorem Closed.compareTsn (C : Closed P) (s : State) (f : Frame) : P s → P ((s.compareTsn f).1) := by
  intro h
  unfold State.compareTsn
  try simp only []
  repeat (first | with_reducible assumption | with_reducible apply C.replica | split | rfl)

theorem Closed.applyRule (C : Closed P) (s : State) (b o : Bool) (f : Frame) : P s → P ((s.applyRule b o f).1) := by
  intro h
  unfold State.applyRule
  try simp only []
  repeat (first | with_reducible assumption | with_reducible apply C.deliver | with_reducible apply C.advanceTsn | with_reducible apply C.claimRule | with_reducible apply C.releaseRule | with_reducible apply C.withdrawRule | with_reducible apply C.barRenewal | with_reducible apply C.renewRule | with_reducible apply C.ownVerdictEnds | with_reducible apply C.expireRule | with_reducible apply C.joinRule | with_reducible apply C.readyRule | with_reducible apply C.removeAndTell | split | rfl)

theorem Closed.applyFrame (C : Closed P) (s : State) (b o : Bool) (f : Frame) : P s → P ((s.applyFrame b o f).1) := by
  intro h
  unfold State.applyFrame
  try simp only []
  repeat (first | with_reducible assumption | with_reducible apply C.scSame | with_reducible apply C.applyRule | with_reducible apply C.compareTsn | split | rfl)

theorem Closed.takeRemovalReports (C : Closed P) (s : State) (rep : Report) : P s → P (s.takeRemovalReports rep) := by
  intro h
  unfold State.takeRemovalReports
  try simp only []
  repeat (first | with_reducible assumption | with_reducible apply C.divergence | with_reducible apply C.ownEviction | with_reducible apply C.free | split | rfl)

theorem Closed.takeReadyReport (C : Closed P) (s : State) (b : Bool) : P s → P (s.takeReadyReport b) := by
  intro h
  unfold State.takeReadyReport
  try simp only []
  repeat (first | with_reducible assumption | with_reducible apply C.note | with_reducible apply C.enterMember | with_reducible apply C.failedAttempt | split | rfl)

theorem Closed.takeReport (C : Closed P) (s : State) (rep : Report) : P s → P (s.takeReport rep) := by
  intro h
  unfold State.takeReport
  try simp only []
  repeat (first | with_reducible assumption | with_reducible apply C.takeRemovalReports | with_reducible apply C.leavingEnd | with_reducible apply C.takeReadyReport | with_reducible apply C.takeShadow | split | rfl)

theorem Closed.applyLive (C : Closed P) (s : State) (o : Bool) (f : Frame) : P s → P (s.applyLive o f) := by
  intro h
  unfold State.applyLive
  try simp only []
  repeat (first | with_reducible assumption | with_reducible apply C.takeReport | with_reducible apply C.applyFrame | split | rfl)

theorem Closed.openLoadedWatches (C : Closed P) (s : State) : P s → P (s.openLoadedWatches) := by
  intro h
  unfold State.openLoadedWatches
  refine Closed.foldl _ ?_ _ _ (Closed.foldl _ ?_ _ _ h)
  all_goals
    intro s x h
    split <;> first | exact h | exact C.openPresence _ _ _ h | exact C.openExpiry _ _ _ _ h

theorem Closed.loadStaged (C : Closed P) (s : State) (x : Staged) : P s → P (s.loadStaged x) := by
  intro h
  unfold State.loadStaged
  try simp only []
  repeat (first | with_reducible assumption | with_reducible apply C.openLoadedWatches | with_reducible apply C.scSame | with_reducible apply C.replica | split | rfl)

theorem Closed.replay (C : Closed P) (s : State) (fs : List Frame) : P s → P ((State.replay fs s).1) := by
  induction fs generalizing s with
  | nil => intro h; exact h
  | cons f fs ih =>
    intro h
    have h1 := C.applyFrame s false false f h
    unfold State.replay
    dsimp only
    split
    · exact h1
    · exact ih _ h1

theorem Closed.loadAndReplay (C : Closed P) (s : State) (x : Staged) : P s → P (s.loadAndReplay x) := by
  intro h
  have h1 := C.replay _ s.sc.catchUp (C.loadStaged s x h)
  unfold State.loadAndReplay
  dsimp only
  split
  · refine C.queueMembership _ _ ?_
    with_reducible apply C.scSame
    · rfl
    · with_reducible apply C.scEmpty
      · rfl
      · exact h1
  · refine C.failedAttempt _ _ ?_
    with_reducible apply C.scEmpty
    · rfl
    · exact h1

theorem Closed.takeSegment (C : Closed P) (s : State) (v : Station) (t : Word16) (p : Payload) : P s → P (s.takeSegment v t p) := by
  intro h
  unfold State.takeSegment
  try simp only []
  repeat (first | with_reducible assumption | with_reducible apply C.scSame | with_reducible apply C.failedAttempt | with_reducible apply C.loadAndReplay | split | rfl)

theorem Closed.foundingFacts (C : Closed P) (s : State) (f : Frame) : P s → P (s.foundingFacts f) := by
  intro h
  unfold State.foundingFacts
  try simp only []
  repeat (first | with_reducible assumption | with_reducible apply C.scSame | split | rfl)

theorem Closed.recordCatchUp (C : Closed P) (s : State) (f : Frame) : P s → P (s.recordCatchUp f) := by
  intro h
  unfold State.recordCatchUp
  split
  · rename_i hl
    exact C.sc _ _ (Or.inr (Or.inr ⟨f, hl, rfl⟩)) h
  · exact C.failedAttempt _ _ h

theorem Closed.joinerTakes (C : Closed P) (s : State) (f : Frame) : P s → P (s.joinerTakes f) := by
  intro h
  unfold State.joinerTakes
  try simp only []
  repeat (first | with_reducible assumption | with_reducible apply C.takeSegment | with_reducible apply C.enterFaulted | with_reducible apply C.recordCatchUp | with_reducible apply C.foundingFacts | split | rfl)

theorem Closed.handOn (C : Closed P) (s : State) (o : Bool) (f : Frame) : P s → P (s.handOn o f) := by
  intro h
  unfold State.handOn
  try simp only []
  repeat (first | with_reducible assumption | with_reducible apply C.applyLive | with_reducible apply C.leavingEnd | with_reducible apply C.ownJoinAccepted | with_reducible apply C.joinerTakes | split | rfl)

/-! ## Operations of Line -/

theorem Closed.setCount (C : Closed P) (s : State) (src : Source) (n : Nat) : P s → P (s.setCount src n) := by
  intro h
  unfold State.setCount
  split
  · exact C.scSame _ _ rfl h
  · exact C.updateHold _ _ _ h
  · exact C.tu _ _ h
  · split
    · exact C.scSame _ _ rfl h
    · exact h
  · exact C.tu _ _ h
  · exact C.requests _ _ (fun q => by split <;> exact ⟨rfl, rfl⟩) h
  · exact C.tu _ _ h

theorem Closed.abandon (C : Closed P) (s : State) (src : Source) : P s → P (s.abandon src) := by
  intro h
  unfold State.abandon
  try simp only []
  repeat (first | with_reducible assumption | with_reducible apply C.failedAttempt | with_reducible apply C.removeControl | with_reducible apply C.readyAbandoned | with_reducible apply C.leavingEnd | with_reducible apply C.updateHold | with_reducible apply C.requeueVerdict | with_reducible apply C.endVerdict | with_reducible apply C.segmentAbandoned | with_reducible apply C.setCount | with_reducible apply C.surrenderAdd | with_reducible apply C.completeRequest | split | rfl)

theorem Closed.attemptFailed (C : Closed P) (s : State) (b : Bool) : P s → P (s.attemptFailed b) := by
  intro h
  unfold State.attemptFailed
  try simp only []
  repeat (first | with_reducible assumption | with_reducible apply C.lu | with_reducible apply C.setCount | with_reducible apply C.abandon | split | rfl)

theorem Closed.withdrawChecked (C : Closed P) (s : State) (src : Source) : P s → P (s.withdrawChecked src) := by
  intro h
  unfold State.withdrawChecked
  try simp only []
  repeat (first | with_reducible assumption | with_reducible apply C.updateHold | with_reducible apply C.endVerdict | with_reducible apply C.surrenderRemove | with_reducible apply C.completeRequest | with_reducible apply C.tu | split | rfl)

theorem Closed.choose (C : Closed P) (s : State) (n : Nat) : P s → P ((State.choose n s).1) := by
  induction n generalizing s with
  | zero => intro h; exact h
  | succ n ih =>
    intro h
    unfold State.choose
    split
    · split
      · exact h
      · exact ih _ (C.withdrawChecked _ _ h)
    · exact h

theorem Closed.markOnAir (C : Closed P) (s : State) (src : Source) : P s → P (s.markOnAir src) := by
  intro h
  unfold State.markOnAir
  split
  · exact C.requests _ _ (fun q => by split <;> exact ⟨rfl, rfl⟩) h
  all_goals exact h

theorem Closed.beginAttempt (C : Closed P) (s : State) (c : Candidate) : P s → P (s.beginAttempt c) := by
  intro h
  unfold State.beginAttempt
  try simp only []
  repeat (first | with_reducible assumption | with_reducible apply C.lu | with_reducible apply C.markOnAir | split | rfl)

theorem Closed.startAttempt (C : Closed P) (s : State) : P s → P (s.startAttempt) := by
  intro h
  unfold State.startAttempt
  try simp only []
  repeat (first | with_reducible assumption | with_reducible apply C.beginAttempt | with_reducible apply C.lu | with_reducible apply C.choose | split | rfl)

theorem Closed.ownFrameLeaves (C : Closed P) (s : State) (a : Attempt) : P s → P (s.ownFrameLeaves a) := by
  intro h
  unfold State.ownFrameLeaves
  try simp only []
  repeat (first | with_reducible assumption | with_reducible apply C.removeControl | with_reducible apply C.segmentAccepted | with_reducible apply C.tu | split | rfl)

theorem Closed.restartPresence (C : Closed P) (s : State) : P s → P (s.restartPresence) := by
  intro h
  unfold State.restartPresence
  try simp only []
  repeat (first | with_reducible assumption | with_reducible apply C.tu | split | rfl)

theorem Closed.acceptOwn (C : Closed P) (s : State) (a : Attempt) : P s → P (s.acceptOwn a) := by
  intro h
  unfold State.acceptOwn
  try simp only []
  repeat (first | with_reducible assumption | with_reducible apply C.handOn | with_reducible apply C.restartPresence | with_reducible apply C.ownFrameLeaves | with_reducible apply C.lu | split | rfl)

theorem Closed.acceptForeign (C : Closed P) (s : State) (f : Frame) : P s → P (s.acceptForeign f) := by
  intro h
  unfold State.acceptForeign
  try simp only []
  repeat (first | with_reducible assumption | with_reducible apply C.enterFaulted | with_reducible apply C.handOn | with_reducible apply C.hearStation | with_reducible apply C.lu | split | rfl)

theorem Closed.cutOff (C : Closed P) (s : State) : P s → P (s.cutOff) := by
  intro h
  unfold State.cutOff
  try simp only []
  repeat (first | with_reducible assumption | with_reducible apply C.attemptFailed | with_reducible apply C.lu | split | rfl)

theorem Closed.followFrame (C : Closed P) (s : State) (rs : List BitReading) : P s → P (s.followFrame rs) := by
  intro h
  unfold State.followFrame
  try simp only []
  repeat (first | with_reducible assumption | with_reducible apply C.lu | split | rfl)

theorem Closed.watchSlot (C : Closed P) (s : State) (f : Frame) (rs : List BitReading) : P s → P (s.watchSlot f rs) := by
  intro h
  unfold State.watchSlot
  try simp only []
  repeat (first | with_reducible assumption | with_reducible apply C.lu | split | rfl)

theorem Closed.driveVeto (C : Closed P) (s : State) (rs : List BitReading) : P s → P (s.driveVeto rs) := by
  intro h
  unfold State.driveVeto
  try simp only []
  repeat (first | with_reducible assumption | with_reducible apply C.lu | split | rfl)

theorem Closed.jam (C : Closed P) (s : State) (rs : List BitReading) : P s → P (s.jam rs) := by
  intro h
  unfold State.jam
  exact C.attemptFailed _ _ (C.lu _ _ h)

theorem Closed.muteReceiver (C : Closed P) (s : State) : P s → P (s.muteReceiver) := by
  intro h
  unfold State.muteReceiver
  try simp only []
  repeat (first | with_reducible assumption | with_reducible apply C.enterFaulted | with_reducible apply C.attemptFailed | with_reducible apply C.lu | split | rfl)

theorem Closed.vetoReception (C : Closed P) (s : State) (rs : List BitReading) : P s → P (s.vetoReception rs) := by
  intro h
  unfold State.vetoReception
  try simp only []
  repeat (first | with_reducible assumption | with_reducible apply C.muteReceiver | with_reducible apply C.driveVeto | split | rfl)

theorem Closed.reception (C : Closed P) (s : State) (rs : List BitReading) : P s → P (s.reception rs) := by
  intro h
  unfold State.reception
  try simp only []
  repeat (first | with_reducible assumption | with_reducible apply C.watchSlot | with_reducible apply C.vetoReception | with_reducible apply C.followFrame | split | rfl)

/-! ## What no block operation touches -/

/-- The fields that none of these operations changes, as they stand in `s`. -/
def State.sameOutside (s t : State) : Prop :=
  t.power = s.power ∧ t.cause = s.cause ∧ t.port = s.port ∧ t.response = s.response ∧ t.config = s.config
  ∧ t.tm = s.tm ∧ t.gou.maps = s.gou.maps ∧ t.pending = s.pending

theorem State.sameOutside_refl (s : State) : s.sameOutside s := ⟨rfl, rfl, rfl, rfl, rfl, rfl, rfl, rfl⟩

/-- So `(Closed.outside s).applyLive s own f s.sameOutside_refl` is the frame of an application, and so for each. -/
theorem Closed.outside (s : State) : Closed s.sameOutside where
  lu := fun _ _ h => h
  tu := fun _ _ h => h
  replica := fun _ _ h => h
  kp := fun _ _ h => h
  free := fun _ _ h => h
  note := fun _ _ h => h
  filter := fun _ _ h => h
  requests := fun _ _ _ h => h
  sc := fun _ _ _ h => h
  active := fun _ _ h => h
  irq := fun _ _ h => h

end Sys2Proof.Machine
end

