-- ==== Sys2Proof/Laws/Codec.lean ====
section
/-! SUPPORT. Each field of a frame and of a configuration record is read back from the byte that spells it. -/

namespace Sys2Proof.Machine

/-! ## Fields of a frame -/

theorem wordOf_wordBytes (w : Word16) : wordOf (w.extractLsb' 8 8) (w.extractLsb' 0 8) = w := by
  unfold wordOf
  ext i hi
  simp only [BitVec.getElem_append, BitVec.getElem_extractLsb']
  split
  · simp [BitVec.getLsbD_eq_getElem (show i < 16 by omega)]
  · rename_i h
    simp only [BitVec.getLsbD_eq_getElem (show 8 + (i - 8) < 16 by omega)]
    congr 1; omega

theorem stationOf_stationByte : ∀ v : Station, stationOf (stationByte v) = some v := by decide +kernel

theorem resourceOf_resourceByte : ∀ r : Resource, resourceOf (resourceByte r) = some r := by decide +kernel

theorem roleOf_roleByte (role : Role) : ∀ v : Station, roleOf (roleByte role v) = some (role, v) := by
  cases role <;> decide +kernel

theorem modeOf_modeByte (m : LeaseMode) : modeOf (modeByte m) = some m := by cases m <;> decide +kernel

theorem waitOf_waitByte (w : Bool) : waitOf (waitByte w) = some w := by cases w <;> decide +kernel

theorem tagOf_tagByte : ∀ t : Tag, tagOf (tagByte t) = some t
  | .host t => by revert t; decide
  | .surrender => by decide +kernel

theorem attemptOf_byteOf : ∀ a : Fin 4, attemptOf (byteOf a.val) = some a := by decide +kernel

/-- The first byte of a roster record gives back its state and its providing-for. -/
theorem rosterRec_firstByte (state : Nat) (hs : state = 0x00 ∨ state = 0x40 ∨ state = 0x80) : ∀ v : Station,
    (byteOf (state + (0x20 + v.val))).getLsbD 5 = true ∧ (byteOf (state + (0x20 + v.val))).toNat % 32 = v.val
      ∧ (byteOf (state + (0x20 + v.val))).toNat / 64 = state / 64 := by
  rcases hs with rfl | rfl | rfl <;> decide +kernel

theorem rosterRecOf_bytes (x : RosterRec) : ∀ b0 b1, rosterRecBytes x = [b0, b1] → rosterRecOf b0 b1 = some x := by
  rcases x with ⟨st, pf, inc⟩
  intro b0 b1 h
  simp only [rosterRecBytes, List.cons.injEq, and_true] at h
  obtain ⟨rfl, rfl⟩ := h
  rcases pf with _ | v
  · cases st <;> rfl
  · cases st
    · obtain ⟨h1, h2, h3⟩ := rosterRec_firstByte 0x00 (Or.inl rfl) v
      simp only [rosterRecOf, h1, h2, h3, if_true]
    · obtain ⟨h1, h2, h3⟩ := rosterRec_firstByte 0x40 (Or.inr (Or.inl rfl)) v
      simp only [rosterRecOf, h1, h2, h3, if_true]
    · obtain ⟨h1, h2, h3⟩ := rosterRec_firstByte 0x80 (Or.inr (Or.inr rfl)) v
      simp only [rosterRecOf, h1, h2, h3, if_true]

theorem waiterRecOf_byte (w : Waiter) : waiterRecOf (waiterRecByte w) = w := by
  rcases w with ⟨v, m⟩
  cases m <;> revert v <;> decide +kernel

theorem vectorOf_toList {α : Type} {n : Nat} (x : Vector α n) : vectorOf n x.toList = some x := by
  unfold vectorOf
  rcases x with ⟨a, ha⟩
  simp [ha]

/-! ## What a transmitter reads back -/

/-- A bit sent meets a mismatch exactly in a bit time wholly DOMINANT and in one that reads as the other bit. -/
theorem bitMismatch_iff (sent : Bool) (read : BitReading) :
    bitMismatch sent read = true ↔ read = .dominant ∨ read = if sent then .zero else .one := by
  cases sent <;> cases read <;> decide

theorem collides_iff (f : Frame) (readBack : List BitReading) :
    Frame.collides f readBack = true ↔ meetsAnother f readBack := by
  simp only [Frame.collides, meetsAnother, List.any_eq_true, ← bitMismatch_iff]
  constructor
  · rintro ⟨x, hx, h⟩
    obtain ⟨i, hi⟩ := List.mem_iff_getElem?.mp hx
    rw [List.getElem?_zip_eq_some] at hi
    exact ⟨i, x.1, x.2, hi.1, hi.2, h⟩
  · rintro ⟨i, sent, read, h1, h2, h⟩
    exact ⟨(sent, read), List.mem_iff_getElem?.mpr ⟨i, List.getElem?_zip_eq_some.mpr ⟨h1, h2⟩⟩, h⟩

/-! ## Fields of a configuration record -/

theorem rateOf_rateByte (r : BitRate) : rateOf (rateByte r) = some r := by cases r <;> decide +kernel

theorem mapOf_mapByte (m : Option LineMap) : mapOf (mapByte m) = some m := by
  rcases m with _ | ⟨r, q⟩
  · decide
  · cases q <;> revert r <;> decide +kernel

theorem byteOf_toNat (n : Nat) (h : n < 256) : (byteOf n).toNat = n := by
  simp [byteOf, Nat.mod_eq_of_lt h]

theorem rangeOf_byteOf (lo hi n : Nat) (h : lo ≤ n ∧ n ≤ hi) (h2 : hi < 256) : rangeOf lo hi (byteOf n) = some n := by
  unfold rangeOf
  rw [byteOf_toNat n (by omega), if_pos h]

end Sys2Proof.Machine
end

