-- ==== Sys2Proof/Laws/Station.lean ====
section
/-! SUPPORT. The changes of station state, the lapses and the ends of an attempt, each as one update of the whole state.
What an operation withdraws from the current attempt stands as `l`. -/

namespace Sys2Proof.Machine

/-! ## What is withdrawn from the current attempt, as some new attempt -/

theorem State.withdrawAttempt_form (s : State) (p : Source → Bool) :
    ∃ l, s.withdrawAttempt p = { s with lu := { s.lu with current := l } } := by
  rw [State.withdrawAttempt_eq]; exact ⟨_, rfl⟩

/-- An update made after a withdrawal is made on the state with some new attempt. -/
theorem State.withdrawAttempt_update (s : State) (f : State → State) (p : Source → Bool) :
    ∃ l, f (s.withdrawAttempt p) = f { s with lu := { s.lu with current := l } } := by
  obtain ⟨l, h⟩ := s.withdrawAttempt_form p
  exact ⟨l, congrArg f h⟩

theorem State.clearReplica_form (s : State) :
    ∃ l, s.clearReplica = { s with
      lu := { s.lu with current := l }, replica := Replica.cleared, tu := TimerUnit.afterReset
      sc := { s.sc with control := [], shadow := none } } := by
  obtain ⟨l, h⟩ := s.withdrawAttempt_form (fun _ => true)
  unfold State.clearReplica; rw [h]; exact ⟨l, rfl⟩

theorem State.withdrawMembership_form (s : State) :
    ∃ l, s.withdrawMembership = { s with
      lu := { s.lu with current := l }
      sc := { s.sc with control := s.sc.control.filter (fun c => !c.kind.isMembership) } } := by
  rw [State.withdrawMembership_eq]
  exact s.withdrawAttempt_update (fun x => x.setSc
    { s.sc with control := s.sc.control.filter (fun c => !c.kind.isMembership) }) _

theorem State.queueMembership_form (s : State) (k : ControlKind) :
    ∃ l, s.queueMembership k = { s with
      lu := { s.lu with current := l }
      sc := { s.sc with
        control := s.sc.control.filter (fun c => !c.kind.isMembership) ++ [{ kind := k, count := 0 }] } } := by
  rw [State.queueMembership_eq]
  exact s.withdrawAttempt_update (fun x => x.setSc { s.sc with
    control := s.sc.control.filter (fun c => !c.kind.isMembership) ++ [{ kind := k, count := 0 }] }) _

theorem State.stopPresence_form (s : State) :
    ∃ l, s.stopPresence = { s with
      lu := { s.lu with current := l }, tu := { s.tu with presenceTimer := none, presenceOffer := none } } := by
  obtain ⟨l, h⟩ := s.withdrawAttempt_form (fun src => src == .presence)
  unfold State.stopPresence; rw [h]; exact ⟨l, rfl⟩

/-! ## Member operation -/

/-- R74, R140. -/
theorem State.endMember_eq (s : State) :
    ∃ l, s.endMember = { s with
      lu := { s.lu with current := l }, requests := [], kp := { permit := .none, timer := none },
      nu := s.nu.arriveAll (s.requests.map (fun q => .done q.tag .cancelled q.r)) } := by
  obtain ⟨l, h⟩ := s.cancelRequests_eq (fun _ => true)
  refine ⟨l, ?_⟩
  have h1 : s.requests.filter (fun q => !(fun _ => true) q) = [] := by simp
  have h2 : s.requests.filter (fun _ => true) = s.requests := by simp
  unfold State.endMember
  rw [h, h1, h2]
  rfl

/-- R64, R113, R117, R118, R140. -/
theorem State.enterMember_eq (s : State) :
    s.enterMember = { s with
      sc := { s.sc with station := .member, attemptNo := 0, readyRequeue := 0 }
      tu := { s.tu with
        verdicts := [], presenceTimer := some 0
        expiry := s.tu.expiry.map (fun w => { w with elapsed := 0, queued := false })
        presence := s.tu.presence.map (fun w => { w with elapsed := 0, queued := false }) }
      kp := if s.configField ConfigRecord.keepPeriod = 0 then { permit := .none, timer := none }
        else { permit := .early, timer := some 0 } } := rfl

/-! ## Joining, leaving, faults -/

/-- R57, R106. -/
theorem State.joinStart_eq (s : State) :
    ∃ l, s.joinStart = { s with
      replica := Replica.cleared, tu := TimerUnit.afterReset
      sc := { s.sc with
        station := .joinWait, attemptNo := 0, ownInc := 0, readyRequeue := 0, joinAccepted := false, catchUp := [],
        staged := none, joinTimer := none, stallTimer := none, shadow := none,
        control := [{ kind := .join, count := 0 }] }
      lu := { (if !s.sc.station.onLine && !s.lu.sending then s.lu.endReception else s.lu) with
        vetoCount := 0, muted := false, current := l, integrating := !s.sc.station.onLine || s.lu.integrating } } := by
  obtain ⟨l1, h1⟩ := s.clearReplica_form
  obtain ⟨l2, h2⟩ := State.queueMembership_form { s with
    lu := { s.lu with current := l1 }, replica := Replica.cleared, tu := TimerUnit.afterReset
    sc := { s.sc with
      station := .joinWait, attemptNo := 0, ownInc := 0, readyRequeue := 0, joinAccepted := false, catchUp := [],
      staged := none, joinTimer := none, stallTimer := none, shadow := none, control := [] } } .join
  refine ⟨l2, ?_⟩
  unfold State.joinStart
  rw [h1]
  refine (congrArg (fun x => State.lineJoinStart x (!s.sc.station.onLine)) h2).trans ?_
  unfold State.lineJoinStart
  rcases hb : (!s.sc.station.onLine && !s.lu.sending) with _ | _
  · simp only [show ∀ l : Option Attempt, ({ s.lu with current := l } : LineUnit).sending = s.lu.sending from fun _ => rfl,
      hb, Bool.false_eq_true, if_false]
    rfl
  · simp only [show ∀ l : Option Attempt, ({ s.lu with current := l } : LineUnit).sending = s.lu.sending from fun _ => rfl,
      hb, if_true]
    rfl

/-- R73, R77, R112, R115, R125. -/
theorem State.enterLeaving_eq (s : State) (i : LeaveIntent) (x : LeaveReplica) :
    ∃ l, s.enterLeaving i x = { s with
      requests := [], kp := { permit := .none, timer := none }
      nu := s.nu.arriveAll (s.requests.map (fun q => .done q.tag .cancelled q.r))
      sc := { s.sc with
        station := .leaving i x, catchUp := [], staged := none, joinTimer := none, stallTimer := none,
        control := s.sc.control.filter (fun c => !c.kind.isMembership) ++ [{ kind := .leave, count := 0 }] }
      tu := { s.withdrawVerdicts.tu with
        presenceTimer := none, presenceOffer := none,
        holds := s.tu.holds.map (fun h => { h with running := false }) }
      lu := { s.lu with current := l } } := by
  obtain ⟨l, h⟩ := s.withdrawVerdicts.endMember_eq
  obtain ⟨l2, h2⟩ := State.stopPresence_form { s.withdrawVerdicts with
    lu := { s.lu with current := l }, requests := [], kp := { permit := .none, timer := none }
    nu := s.nu.arriveAll (s.requests.map (fun q => .done q.tag .cancelled q.r)) }
  obtain ⟨l3, h3⟩ := State.queueMembership_form { s.withdrawVerdicts with
    lu := { s.lu with current := l2 }, requests := [], kp := { permit := .none, timer := none }
    nu := s.nu.arriveAll (s.requests.map (fun q => .done q.tag .cancelled q.r))
    sc := { s.sc with
      station := .leaving i x, catchUp := [], staged := none, joinTimer := none, stallTimer := none }
    tu := { s.withdrawVerdicts.tu with
      presenceTimer := none, presenceOffer := none,
      holds := s.tu.holds.map (fun h => { h with running := false }) } } .leave
  refine ⟨l3, ?_⟩
  unfold State.enterLeaving
  rw [h]
  exact (congrArg (fun y => State.queueMembership (State.setSc (State.setTu y { y.tu with
    holds := y.tu.holds.map (fun h => { h with running := false }) }) { y.sc.dropJoin with
      station := .leaving i x }) .leave) h2).trans h3

/-- R79, R106: the line unit apart, which goes off by `State.lineOff`. -/
theorem State.enterFaulted_eq (s : State) (c : FaultCause) (h : s.sc.station.onLine = true) :
    ∃ lu, s.enterFaulted c = { s with
      lu := lu, requests := [], kp := { permit := .none, timer := none }, replica := Replica.cleared,
      tu := TimerUnit.afterReset
      nu := s.nu.arriveAll
        (s.requests.map (fun q => .done q.tag .cancelled q.r) ++ [.station (.faulted c) (.fault c)])
      sc := { s.sc with
        station := .faulted c, catchUp := [], staged := none, joinTimer := none, stallTimer := none, control := [],
        shadow := none } } := by
  obtain ⟨l, he⟩ := s.endMember_eq
  unfold State.enterFaulted
  obtain ⟨l2, h2⟩ := State.clearReplica_form { s with
    lu := { s.lu with current := l }, requests := [], kp := { permit := .none, timer := none },
    nu := s.nu.arriveAll (s.requests.map (fun q => .done q.tag .cancelled q.r)) }
  rw [if_pos h, he, h2, NoteUnit.arriveAll_append]
  unfold State.lineOff State.setLu
  exact ⟨_, rfl⟩

theorem State.enterFaulted_offLine (s : State) (c : FaultCause) (h : s.sc.station.onLine = false) :
    s.enterFaulted c = s := by
  unfold State.enterFaulted
  rw [if_neg (by simp [h])]

/-- R62, below the fourth failure, where the replica was not live. -/
theorem State.failedAttempt_retries (s : State) (h : s.sc.attemptNo + 1 < 4) :
    ∃ l, s.failedAttempt false = { s with
      tu := { s.tu with presenceTimer := none, presenceOffer := none }
      sc := { s.sc with
        station := .joinWait, attemptNo := s.sc.attemptNo + 1, joinAccepted := false, memberHeard := false,
        lowerHeard := false, ownInc := 0, readyRequeue := 0, catchUp := [], staged := none, joinTimer := none,
        stallTimer := none,
        control := s.sc.control.filter (fun c => !c.kind.isMembership) ++ [{ kind := .join, count := 0 }] }
      lu := { s.lu with vetoCount := 0, muted := false, current := l } } := by
  obtain ⟨l1, h1⟩ := s.stopPresence_form
  obtain ⟨l2, h2⟩ := State.withdrawMembership_form { s with
    lu := { s.lu with current := l1 }, tu := { s.tu with presenceTimer := none, presenceOffer := none } }
  obtain ⟨l3, h3⟩ := State.queueMembership_form { s with
    lu := { s.lu with current := l2 }, tu := { s.tu with presenceTimer := none, presenceOffer := none }
    sc := { s.sc with
      station := .joinWait, attemptNo := s.sc.attemptNo + 1, joinAccepted := false, memberHeard := false,
      lowerHeard := false, ownInc := 0, readyRequeue := 0, catchUp := [], staged := none, joinTimer := none,
      stallTimer := none, control := s.sc.control.filter (fun c => !c.kind.isMembership) } } .join
  refine ⟨l3, ?_⟩
  have hf : (s.sc.control.filter (fun c => !c.kind.isMembership)).filter (fun c => !c.kind.isMembership)
      = s.sc.control.filter (fun c => !c.kind.isMembership) := by simp
  unfold State.failedAttempt
  simp only [Bool.false_eq_true, if_false]
  rw [h1, h2]
  simp only [StationCtl.dropJoin, State.setSc]
  refine (if_pos h).trans ?_
  rw [hf] at h3
  exact (congrArg (fun x => State.lineJoinStart x false) h3).trans rfl

/-! ## Verdicts and presence -/

/-- R118, R119, with no attempt of this station on the line. -/
theorem State.hearStation_eq (s : State) (v : Station) (i : Byte) (hs : s.lu.sending = false) :
    s.hearStation v i = { s with
      tu := { s.tu with
        presence := if s.tu.presence.any (fun w => w.station == v && w.inc == i) then
          s.tu.presence.map (fun w => if w.station = v then { w with elapsed := 0, queued := false } else w)
          else s.tu.presence
        verdicts := if s.tu.presence.any (fun w => w.station == v && w.inc == i) then
          s.tu.verdicts.filter (fun x => !Verdict.evicts v x.verdict) else s.tu.verdicts } } := by
  unfold State.hearStation
  rcases h : s.tu.presence.any (fun w => w.station == v && w.inc == i) with _ | _
  · rfl
  · simp only [if_true, s.dropVerdicts_off hs]
    rfl

/-- R114: an EXPIRE is queued by a change of the Timer Unit alone, and only at its end of the queue. -/
theorem State.offerExpire_eq (s : State) (w : ExpiryWatch) :
    s.offerExpire w = s.setTu { s.tu with
      expiry := if s.mayJudge = true ∧ w.queued = false ∧ s.expiryMs ≤ w.elapsed then
        s.tu.expiry.map (fun x => if x.on w.r w.holder then { x with queued := true } else x) else s.tu.expiry
      verdicts := if s.mayJudge = true ∧ w.queued = false ∧ s.expiryMs ≤ w.elapsed then
        s.tu.verdicts ++ [{ verdict := .expire w.r w.holder w.gen, count := 0 }] else s.tu.verdicts } := by
  unfold State.offerExpire
  by_cases h : s.mayJudge = true ∧ w.queued = false ∧ s.expiryMs ≤ w.elapsed
  · rw [if_pos ⟨h.1, by simp [h.2.1], h.2.2⟩, if_pos h, if_pos h]; rfl
  · rw [if_neg (fun x => h ⟨x.1, by simpa using x.2.1, x.2.2⟩), if_neg h, if_neg h]; rfl

/-- R119. -/
theorem State.offerEvict_eq (s : State) (w : PresenceWatch) :
    s.offerEvict w = s.setTu { s.tu with
      presence := if s.mayJudge = true ∧ w.queued = false ∧ s.evictionMs ≤ w.elapsed then
        s.tu.presence.map (fun x => if x.station = w.station then { x with queued := true } else x) else s.tu.presence
      verdicts := if s.mayJudge = true ∧ w.queued = false ∧ s.evictionMs ≤ w.elapsed then
        s.tu.verdicts ++ [{ verdict := .evict w.station w.inc, count := 0 }] else s.tu.verdicts } := by
  unfold State.offerEvict
  by_cases h : s.mayJudge = true ∧ w.queued = false ∧ s.evictionMs ≤ w.elapsed
  · rw [if_pos ⟨h.1, by simp [h.2.1], h.2.2⟩, if_pos h, if_pos h]; rfl
  · rw [if_neg (fun x => h ⟨x.1, by simpa using x.2.1, x.2.2⟩), if_neg h, if_neg h]; rfl

/-! ## Lapses -/

/-- R111. -/
theorem State.lapseHold_eq (s : State) (r : Resource) :
    s.lapseHold r = { s with
      nu := s.nu.arrive (.lost r .lapsed)
      tu := { s.tu with
        holds := s.tu.holds.map (fun h => if h.r = r then { h with lapsed := true, running := false } else h)
        surrender := if s.releasePending r = true ∨ s.surrendering r = true then s.tu.surrender
          else insertSurrender { r := r, mark := .hold, count := 0 } s.tu.surrender } } := by
  have h1 : (s.updateHold r (fun h => { h with lapsed := true, running := false })).releasePending r
      = s.releasePending r := rfl
  have h2 : (s.updateHold r (fun h => { h with lapsed := true, running := false })).surrendering r
      = s.surrendering r := rfl
  unfold State.lapseHold
  simp only [h1, State.surrenderAdd_eq, h2, State.note_eq]
  rcases s.releasePending r with _ | _ <;> rcases s.surrendering r with _ | _ <;> rfl

/-- A pass over resources that adds those chosen: a resource in the set keeps its mark (R122, R144). -/
theorem State.surrenderPass_mark (mark : SurrenderMark) (p : State → Resource → Bool)
    (hp : ∀ (s : State) r r', p (s.surrenderAdd r mark) r' = p s r') (r' : Resource) (rs : List Resource) : ∀ s : State,
    (rs.foldl (fun s r => if p s r then s.surrenderAdd r mark else s) s).surrenderMark r' =
      if r' ∈ rs ∧ p s r' = true ∧ s.surrendering r' = false then some mark else s.surrenderMark r' := by
  induction rs with
  | nil => intro s; simp
  | cons r rs ih =>
    intro s
    rcases hc : p s r with _ | _
    · have e : (if p s r = true then s.surrenderAdd r mark else s) = s := by simp [hc]
      rw [List.foldl_cons, e, ih]
      by_cases he : r' = r
      · subst he; simp [hc]
      · simp [he]
    · have e : (if p s r = true then s.surrenderAdd r mark else s) = s.surrenderAdd r mark := by simp [hc]
      rw [List.foldl_cons, e, ih, hp]
      have hm := s.surrenderAdd_mark r r' mark
      have hs : (s.surrenderAdd r mark).surrendering r' = ((s.surrenderAdd r mark).surrenderMark r').isSome :=
        State.surrendering_eq_mark _ _
      have hs0 : s.surrendering r' = (s.surrenderMark r').isSome := State.surrendering_eq_mark _ _
      rw [hs, hm]
      by_cases he : r = r'
      · subst he
        rcases hq : s.surrendering r with _ | _
        · simp [hc]
        · rw [hq] at hs0
          simp [← hs0]
      · have he' : r' ≠ r := fun x => he x.symm
        simp [he, he', ← hs0]

/-! ## The end of an attempt -/

theorem State.attemptFailed_none (s : State) (jam : Bool) (h : s.lu.current = none) : s.attemptFailed jam = s := by
  unfold State.attemptFailed; rw [h]

/-- A frame withdrawn meanwhile leaves without a report (R92). -/
theorem State.attemptFailed_withdrawn (s : State) (jam : Bool) (a : Attempt) (h : s.lu.current = some a)
    (hw : a.withdrawn = true) :
    s.attemptFailed jam
      = s.setLu { s.lu with current := none, backoff := none, tx := if jam then .jam else .idle } := by
  unfold State.attemptFailed; rw [h]; simp only [hw, if_true]

/-- Below the retry limit (R92, R93). -/
theorem State.attemptFailed_backsOff (s : State) (jam : Bool) (a : Attempt) (h : s.lu.current = some a)
    (hw : a.withdrawn = false) (hl : a.count + 1 < s.retryLimit) :
    s.attemptFailed jam =
      ((s.setLu { s.lu with current := none, backoff := none, tx := if jam then .jam else .idle }).setCount a.source
        (a.count + 1)).setLu
      { ((s.setLu { s.lu with current := none, backoff := none, tx := if jam then .jam else .idle }).setCount a.source
          (a.count + 1)).lu with
        backoff := some (backoffBits s.own (a.count + 1)), tx := if jam then .jam else .backoff } := by
  unfold State.attemptFailed; rw [h]
  simp only [hw, Bool.false_eq_true, if_false]
  rw [if_neg (by omega)]

/-- At the retry limit (R92, R98). -/
theorem State.attemptFailed_abandons (s : State) (jam : Bool) (a : Attempt) (h : s.lu.current = some a)
    (hw : a.withdrawn = false) (hl : s.retryLimit ≤ a.count + 1) :
    s.attemptFailed jam =
      (s.setLu { s.lu with current := none, backoff := none, tx := if jam then .jam else .idle }).abandon a.source := by
  unfold State.attemptFailed; rw [h]
  simp only [hw, Bool.false_eq_true, if_false]
  rw [if_pos hl]

/-- The line unit is not read or changed by an attempt count's update. -/
theorem State.setCount_setLu (s : State) (src : Source) (n : Nat) (l : LineUnit) :
    (s.setLu l).setCount src n = (s.setCount src n).setLu l := by
  cases src <;> first | rfl | skip
  unfold State.setCount
  simp only [State.setLu]
  rcases s.sc.shadow with _ | _ <;> rfl

/-! ## The choice of a frame -/

/-- The first candidate is chosen when its check holds (R102, R104). -/
theorem State.choose_first (s : State) (n : Nat) (c : Candidate) (rest : List Candidate)
    (h : s.candidates = c :: rest) (hc : s.attemptCheck c.source = true) : State.choose (n + 1) s = (s, some c) := by
  unfold State.choose; rw [h]; simp only [hc, if_true]

theorem State.choose_empty (s : State) (n : Nat) (h : s.candidates = []) : State.choose n s = (s, none) := by
  cases n <;> unfold State.choose
  · rfl
  · rw [h]

/-- A candidate whose check fails is withdrawn and the choice is made again (R102). -/
theorem State.choose_next (s : State) (n : Nat) (c : Candidate) (rest : List Candidate)
    (h : s.candidates = c :: rest) (hc : s.attemptCheck c.source = false) :
    State.choose (n + 1) s = State.choose n (s.withdrawChecked c.source) := by
  rw [State.choose]; rw [h]; simp only [hc, Bool.false_eq_true, if_false]

end Sys2Proof.Machine
end

