-- ==== Sys2Proof/Laws/Line.lean ====
section
/-! SUPPORT. What the operations of the receiver, of the attempt counts and of the timebase do to the line unit, each as
one equation under the conditions that decide it. -/

namespace Sys2Proof.Machine

/-! ## Counts and timers -/

/-- The first element that satisfies `p` alone changes. -/
theorem updateFirst_split {α : Type} (p : α → Bool) (f : α → α) (i : α) (after : List α) (hi : p i = true) :
    ∀ before : List α, (∀ j ∈ before, p j = false) → updateFirst p f (before ++ i :: after) = before ++ f i :: after := by
  intro before
  induction before with
  | nil => intro _; simp [updateFirst, hi]
  | cons x xs ih =>
    intro h
    simp only [List.cons_append, updateFirst, h x (List.mem_cons_self ..), Bool.false_eq_true, if_false]
    rw [ih (fun j hj => h j (List.mem_cons_of_mem _ hj))]

theorem updateFirst_none {α : Type} (p : α → Bool) (f : α → α) :
    ∀ xs : List α, (∀ j ∈ xs, p j = false) → updateFirst p f xs = xs := by
  intro xs
  induction xs with
  | nil => intro _; rfl
  | cons x xs ih =>
    intro h
    simp only [updateFirst, h x (List.mem_cons_self ..), Bool.false_eq_true, if_false]
    rw [ih (fun j hj => h j (List.mem_cons_of_mem _ hj))]

@[simp] theorem timerReached_none (threshold : Nat) : timerReached none threshold = false := rfl

@[simp] theorem timerReached_some (n threshold : Nat) : timerReached (some n) threshold = decide (threshold ≤ n) := rfl

/-! ## Receptions -/

/-- A station that does not send, or reads back no mismatch, follows the reception (R82, R94). -/
theorem State.meets_false (s : State) (rs : List BitReading)
    (h : ∀ a, s.lu.current = some a → s.lu.tx = .send → ¬ meetsAnother a.frame rs) : s.meets rs = false := by
  unfold State.meets
  split
  · rename_i a ht hc
    cases hm : Frame.collides a.frame rs
    · rfl
    · exact absurd ((collides_iff _ _).mp hm) (h a hc ht)
  · rfl

/-- A sending station that reads back a mismatch has met another one (R89). -/
theorem State.meets_true (s : State) (rs : List BitReading) (a : Attempt) (hc : s.lu.current = some a)
    (ht : s.lu.tx = .send) (h : meetsAnother a.frame rs) : s.meets rs = true := by
  unfold State.meets; rw [ht, hc]; exact (collides_iff _ _).mpr h

/-- The name that the statements use for the end of a reception. -/
theorem LineUnit.endReception_eq (l : LineUnit) : l.endReception = l.cleared := rfl

theorem LineUnit.sending_false_iff (l : LineUnit) : l.sending = false ↔ l.tx ≠ .send ∧ l.tx ≠ .jam ∧ l.tx ≠ .veto := by
  cases h : l.tx <;> simp [LineUnit.sending, h]

/-- A reception without an end mark yet runs on (R94). -/
theorem State.reception_running (s : State) (rs : List BitReading) (h : endMarkRead rs = false) :
    s.reception rs = s.followFrame rs := by
  unfold State.reception; rw [if_neg (by simp [h])]

/-- A collision is never vetoed unless this station sends (R96, log 35). -/
theorem State.reception_collision (s : State) (rs : List BitReading) (h : judge rs = .collision) (ht : s.lu.tx ≠ .send) :
    s.reception rs = s.followFrame rs := by
  unfold State.reception; rw [if_neg (by simp [h, ht])]

/-- The end mark of a frame found good, not failed before on account of the timebase (R91). -/
theorem State.reception_good (s : State) (rs : List BitReading) (f : Frame) (he : endMarkRead rs = true)
    (h : judge rs = .good f) (hf : s.lu.rxFailed = false) : s.reception rs = s.watchSlot f rs := by
  unfold State.reception; rw [if_pos (by simp [he, h])]; simp only [h, hf]

/-- The end mark of a reception that failed (R96, R105). -/
theorem State.reception_vetoed (s : State) (rs : List BitReading) (he : endMarkRead rs = true)
    (h : judge rs = .failed ∨ (judge rs = .collision ∧ s.lu.tx = .send)
      ∨ (judge rs ≠ .collision ∧ s.lu.rxFailed = true)) : s.reception rs = s.vetoReception rs := by
  unfold State.reception
  rw [if_pos ⟨he, by rcases h with h | h | h <;> simp [h]⟩]
  rcases hj : judge rs with f | _ | _ <;> rcases hf : s.lu.rxFailed with _ | _ <;> simp_all

/-- Below the 32nd veto in a row, or with a veto that does not count, nothing else follows (R99, R105). -/
theorem State.vetoReception_unmuted (s : State) (rs : List BitReading)
    (h : s.lu.rxTimebase = true ∨ s.lu.vetoCount + 1 < 32) : s.vetoReception rs = s.driveVeto rs := by
  unfold State.vetoReception
  simp only []
  rw [if_neg]
  rintro ⟨h1, h2⟩
  rcases h with h | h
  · exact h2 h
  · simp only [State.driveVeto, State.setLu, h2, Bool.false_eq_true, if_false, Config.muteLimit] at h1
    omega

/-! ## The timebase (R105) -/

/-- A reception in progress, an own frame's included, is to be vetoed without counting. -/
theorem LineUnit.failReception_receiving (l : LineUnit) (h : l.sending = true ∨ l.rx ≠ .idle) :
    l.failReception = { l with
      rx := if l.rx = .idle then .receive else l.rx, rxFailed := true, rxTimebase := true
      backoffHeld := l.sending || l.backoffHeld } := by
  unfold LineUnit.failReception
  rw [if_pos (by rcases h with h | h <;> simp [h])]

/-- With nothing on the line nothing is marked. -/
theorem LineUnit.failReception_quiet (l : LineUnit) (h1 : l.sending = false) (h2 : l.rx = .idle) :
    l.failReception = l := by
  unfold LineUnit.failReception
  rw [if_neg (by simp [h1, h2])]

/-- An attempt in SEND or VETO is cut off as failed. -/
theorem State.cutOff_attempt (s : State) (h : s.lu.tx = .send ∨ s.lu.tx = .veto) :
    s.cutOff = (s.setLu { s.lu.failReception with clock := .internal }).attemptFailed false := by
  unfold State.cutOff; rcases h with h | h <;> simp only [h]

/-- In JAM the attempt has failed already (log 13). -/
theorem State.cutOff_jam (s : State) (h : s.lu.tx = .jam) :
    s.cutOff = s.setLu { s.lu.failReception with
      clock := .internal, tx := match s.lu.backoff with | some _ => .backoff | none => .idle } := by
  unfold State.cutOff; simp only [h]; rfl

/-- With no attempt on the line the transmitter stays where it is. -/
theorem State.cutOff_idle (s : State) (h : s.lu.tx = .idle ∨ s.lu.tx = .defer ∨ s.lu.tx = .backoff) :
    s.cutOff = s.setLu { s.lu.failReception with clock := .internal } := by
  unfold State.cutOff; rcases h with h | h | h <;> simp only [h]

end Sys2Proof.Machine
end

