-- ==== Sys2Proof/Laws/Selector.lean ====
section
/-! SUPPORT. The choice at attempt start: the checks of R104 as their table gives them, and the candidates taken in turn
(R102). -/

namespace Sys2Proof.Machine

/-- The check of the model is the table of R104. -/
theorem State.attemptCheck_iff (s : State) (src : Source) : s.attemptCheck src = true ↔ s.mayBeSent src := by
  rcases src with k | r | v | i | r | t | _
  · exact iff_of_true rfl trivial
  · simp only [State.attemptCheck, State.mayBeSent, State.renewAllowed, List.any_eq_true, Bool.and_eq_true, beq_iff_eq,
      Bool.not_eq_true']
    constructor
    · rintro ⟨h, hm, rfl, ⟨⟨⟨h1, h2⟩, h3⟩, h4⟩, h5⟩
      exact ⟨h1, ⟨h, hm, rfl, h2⟩, h3, h4, h5⟩
    · rintro ⟨h1, ⟨h, hm, rfl, h2⟩, h3, h4, h5⟩
      exact ⟨h, hm, rfl, ⟨⟨⟨h1, h2⟩, h3⟩, h4⟩, h5⟩
  · rcases v with ⟨r, h, g⟩ | ⟨v, i⟩
    · simp [State.attemptCheck, State.mayBeSent, State.mayJudge, State.entry, and_assoc]
    · simp [State.attemptCheck, State.mayBeSent, State.mayJudge, State.rosterOf, and_assoc]
  · exact iff_of_true rfl trivial
  · simp only [State.attemptCheck, State.mayBeSent]
    rcases s.surrenderMark r with _ | _ | _ <;> simp
  · simp only [State.attemptCheck, State.mayBeSent]
    rcases hf : s.requests.find? (fun q => q.tag == t) with _ | q
    · simp [hf]
    · rcases q with ⟨tag, kind, r, state, count⟩
      rcases kind with ⟨m, w⟩ | _ | _ <;> rcases state with _ | _ <;> simp [hf]
  · simp only [State.attemptCheck, State.mayBeSent, State.presenceCondition, timerReached, State.presenceMs]
    rcases s.sc.station with _ | _ | _ | _ | _ | ⟨_, _⟩ | _ <;> rcases s.tu.presenceTimer with _ | n <;>
      simp <;> intros <;> exact decide_eq_true_iff

/-- A bound on the candidates that one attempt start looks at. -/
def State.chances (s : State) : Nat := s.candidates.length + s.requests.length

theorem State.candidates_length (s : State) : s.candidates.length =
    s.sc.control.length + (s.tu.holds.filterMap OwnHold.candidateOf).length + s.tu.verdicts.length
    + (match s.sc.shadow with | some x => x.candidate | none => []).length
    + (if s.surrenderOffered then s.tu.surrender.length else 0) + min 1 s.requests.length
    + (match s.tu.presenceOffer with | some _ => 1 | none => 0) := by
  unfold State.candidates
  simp only [List.length_append, List.length_map]
  congr 1
  · congr 1
    · congr 1
      split <;> simp
    · cases s.requests <;> simp
  · cases s.tu.presenceOffer <;> rfl

/-- The source of a candidate holds it. -/
theorem State.candidates_source (s : State) (c : Candidate) (h : c ∈ s.candidates) :
    (∃ k, c.source = .control k) ∨ (∃ i, c.source = .segment i)
    ∨ (∃ o ∈ s.tu.holds, ∃ n, o.renewal = .candidate n ∧ c.source = .renew o.r)
    ∨ (∃ i ∈ s.tu.verdicts, c.source = .verdict i.verdict)
    ∨ (s.surrenderOffered = true ∧ ∃ m ∈ s.tu.surrender, c.source = .surrender m.r)
    ∨ (∃ q rest, s.requests = q :: rest ∧ c.source = .host q.tag)
    ∨ (∃ n, s.tu.presenceOffer = some n ∧ c.source = .presence) := by
  unfold State.candidates at h
  simp only [List.mem_append] at h
  rcases h with (((((h | h) | h) | h) | h) | h) | h
  · obtain ⟨k, _, rfl⟩ := List.mem_map.mp h
    exact Or.inl ⟨_, rfl⟩
  · obtain ⟨o, ho, hc⟩ := List.mem_filterMap.mp h
    rcases hr : o.renewal with _ | n | _ <;> simp only [OwnHold.candidateOf, hr, Option.some.injEq, reduceCtorEq] at hc
    exact Or.inr (Or.inr (Or.inl ⟨o, ho, n, hr, by rw [← hc]⟩))
  · obtain ⟨i, hi, rfl⟩ := List.mem_map.mp h
    exact Or.inr (Or.inr (Or.inr (Or.inl ⟨i, hi, rfl⟩)))
  · refine Or.inr (Or.inl ?_)
    rcases hx : s.sc.shadow with _ | x <;> rw [hx] at h
    · simp at h
    · simp only [Shadow.candidate] at h
      split at h <;> simp at h
      subst h; exact ⟨_, rfl⟩
  · split at h
    · obtain ⟨m, hm, rfl⟩ := List.mem_map.mp h
      exact Or.inr (Or.inr (Or.inr (Or.inr (Or.inl ⟨by assumption, m, hm, rfl⟩))))
    · simp at h
  · rcases hq : s.requests with _ | ⟨q, rest⟩ <;> rw [hq] at h <;> simp only [List.mem_singleton, List.not_mem_nil] at h
    subst h
    exact Or.inr (Or.inr (Or.inr (Or.inr (Or.inr (Or.inl ⟨q, rest, rfl, rfl⟩)))))
  · rcases hp : s.tu.presenceOffer with _ | n <;> rw [hp] at h <;> simp only [List.mem_singleton, List.not_mem_nil] at h
    subst h
    exact Or.inr (Or.inr (Or.inr (Or.inr (Or.inr (Or.inr ⟨n, rfl, rfl⟩)))))

/-- Fewer elements pass a filter that one of them fails. -/
theorem filter_length_lt {α : Type} (p : α → Bool) (xs : List α) (x : α) (hx : x ∈ xs) (hp : p x = false) :
    (xs.filter p).length < xs.length := by
  rcases Nat.lt_or_ge (xs.filter p).length xs.length with h | h
  · exact h
  · have := List.length_filter_eq_length_iff.mp (Nat.le_antisymm (List.length_filter_le p xs) h) x hx
    simp [hp] at this

/-- A `filterMap` that keeps what another keeps, or drops it, is no longer, and is shorter once it has dropped something. -/
theorem filterMap_length_le {α β : Type} (f g : α → Option β) (h : ∀ x, g x = none ∨ g x = f x) (xs : List α) :
    (xs.filterMap g).length ≤ (xs.filterMap f).length := by
  induction xs with
  | nil => simp
  | cons x xs ih =>
    simp only [List.filterMap_cons]
    rcases h x with hg | hg <;> rw [hg] <;> cases f x <;> simp only [List.length_cons] <;> omega

theorem filterMap_length_lt {α β : Type} (f g : α → Option β) (h : ∀ x, g x = none ∨ g x = f x) (xs : List α) (x : α)
    (hx : x ∈ xs) (hf : (f x).isSome = true) (hg : g x = none) :
    (xs.filterMap g).length < (xs.filterMap f).length := by
  induction xs with
  | nil => simp at hx
  | cons y ys ih =>
    simp only [List.filterMap_cons]
    rcases List.mem_cons.mp hx with rfl | hm
    · have := filterMap_length_le f g h ys
      rw [hg]
      obtain ⟨b, hb⟩ := Option.isSome_iff_exists.mp hf
      rw [hb]; simp only [List.length_cons]; omega
    · have := ih hm
      rcases h y with h' | h' <;> rw [h'] <;> cases f y <;> simp only [List.length_cons] <;> omega

/-- A check that fails touches no item of the Station Controller. -/
theorem State.withdrawChecked_sc (s : State) (src : Source) : (s.withdrawChecked src).sc = s.sc := by
  unfold State.withdrawChecked State.updateHold State.endVerdict State.surrenderRemove State.withdrawAttempt
    State.completeRequest State.note
  repeat (first | rfl | split)

/-- A candidate withdrawn at its check leaves fewer to look at. -/
theorem State.withdrawChecked_chances (s : State) (c : Candidate) (hc : c ∈ s.candidates)
    (hf : s.attemptCheck c.source = false) : (s.withdrawChecked c.source).chances < s.chances := by
  have hw : (s.withdrawChecked c.source).surrenderOffered = s.surrenderOffered := by
    unfold State.surrenderOffered; rw [State.withdrawChecked_sc]
  unfold State.chances
  rw [State.candidates_length, State.candidates_length, hw, State.withdrawChecked_sc]
  rcases s.candidates_source c hc with ⟨k, h⟩ | ⟨i, h⟩ | ⟨o, ho, n, hr, h⟩ | ⟨i, hi, h⟩ | ⟨ho, m, hm, h⟩
    | ⟨q, rest, hq, h⟩ | ⟨n, hn, h⟩ <;> rw [h] at hf ⊢
  · simp [State.attemptCheck] at hf
  · simp [State.attemptCheck] at hf
  · have := filterMap_length_lt OwnHold.candidateOf
      (fun x => OwnHold.candidateOf (if x.r = o.r then { x with renewal := .idle } else x))
      (fun x => by by_cases hx : x.r = o.r <;> simp [hx, OwnHold.candidateOf]) s.tu.holds o ho
      (by simp [OwnHold.candidateOf, hr]) (by simp [OwnHold.candidateOf])
    simp only [State.withdrawChecked, State.updateHold, State.setTu, List.filterMap_map, Function.comp_def] at this ⊢
    omega
  · have := filter_length_lt (fun x => x.verdict != i.verdict) s.tu.verdicts i hi (by simp)
    rcases hv : i.verdict with ⟨r, h, g⟩ | ⟨v, g⟩ <;> rw [hv] at this <;>
      simp only [State.withdrawChecked, State.endVerdict, State.setTu] <;> omega
  · have := filter_length_lt (fun x => x.r != m.r) s.tu.surrender m hm (by simp)
    have hs : (s.withdrawChecked (.surrender m.r)).tu = { s.tu with
          surrender := s.tu.surrender.filter (fun x => x.r != m.r) }
        ∧ (s.withdrawChecked (.surrender m.r)).requests = s.requests := by
      simp only [State.withdrawChecked, State.surrenderRemove, State.withdrawAttempt_eq]
      exact ⟨rfl, rfl⟩
    rw [hs.1, hs.2, if_pos ho, if_pos ho]
    simp only []
    omega
  · have hfind : s.requests.find? (fun x => x.tag == q.tag) = some q := by rw [hq]; simp
    have := filter_length_lt (fun x => x.tag != q.tag) s.requests q (by rw [hq]; simp) (by simp)
    simp only [State.withdrawChecked, State.completeRequest, hfind, State.note, State.setNu, State.setRequests]
    omega
  · simp only [State.withdrawChecked, State.setTu, hn]
    omega

/-- More fuel than there are candidates to look at changes nothing. -/
theorem State.choose_fuel (n : Nat) : ∀ (m : Nat) (s : State), s.chances < n → s.chances < m →
    State.choose n s = State.choose m s := by
  induction n with
  | zero => intro m s h; omega
  | succ n ih =>
    intro m s h h'
    obtain ⟨m, rfl⟩ : ∃ k, m = k + 1 := ⟨m - 1, by omega⟩
    rcases hc : s.candidates with _ | ⟨c, rest⟩
    · simp [State.choose, hc]
    · rcases hf : s.attemptCheck c.source with _ | _
      · have := s.withdrawChecked_chances c (by rw [hc]; simp) hf
        simp only [State.choose, hc, hf, Bool.false_eq_true, if_false]
        exact ih m _ (by omega) (by omega)
      · simp [State.choose, hc, hf]

/-- The first candidate is sent when its check holds (R102). -/
theorem State.startAttempt_sends (s : State) (c : Candidate) (rest : List Candidate) (hc : s.candidates = c :: rest)
    (hf : s.attemptCheck c.source = true) : s.startAttempt = s.beginAttempt c := by
  simp [State.startAttempt, State.choose, hc, hf]

/-- One that fails its check is withdrawn, and the same attempt start goes on with the rest (R102). -/
theorem State.startAttempt_withdraws (s : State) (c : Candidate) (rest : List Candidate)
    (hc : s.candidates = c :: rest) (hf : s.attemptCheck c.source = false) :
    s.startAttempt = (s.withdrawChecked c.source).startAttempt := by
  have := s.withdrawChecked_chances c (by rw [hc]; simp) hf
  unfold State.chances at this
  have h : State.choose (s.candidates.length + s.requests.length + 1) s =
      State.choose ((s.withdrawChecked c.source).candidates.length + (s.withdrawChecked c.source).requests.length + 1)
        (s.withdrawChecked c.source) := by
    rw [State.choose]
    simp only [hc, hf, Bool.false_eq_true, if_false]
    exact State.choose_fuel _ _ _ (by unfold State.chances; rw [hc] at this; exact this)
      (by unfold State.chances; omega)
  unfold State.startAttempt
  rw [h]

/-- With nothing to send the transmitter is IDLE (R88). -/
theorem State.startAttempt_none (s : State) (hc : s.candidates = []) :
    s.startAttempt = s.setLu { s.lu with tx := .idle, backoff := none } := by
  simp [State.startAttempt, State.choose, hc]

end Sys2Proof.Machine
end

