-- ==== Sys2Proof/Laws/Table.lean ====
section
/-! SUPPORT. The operations on one lease table entry: what each leaves of mode, generation, holders and waiters. -/

namespace Sys2Proof

theorem insertSlot_perm (x : Slot) (xs : List Slot) : (insertSlot x xs).Perm (x :: xs) := by
  induction xs with
  | nil => exact List.Perm.refl _
  | cons y ys ih =>
    unfold insertSlot
    split
    · exact List.Perm.refl _
    · exact (ih.cons y).trans (List.Perm.swap x y ys)

theorem insertSlot_length (x : Slot) (xs : List Slot) : (insertSlot x xs).length = xs.length + 1 :=
  (insertSlot_perm x xs).length_eq

theorem insertSlot_mem (x y : Slot) (xs : List Slot) : y ∈ insertSlot x xs ↔ y = x ∨ y ∈ xs := by
  rw [(insertSlot_perm x xs).mem_iff, List.mem_cons]

/-- Inserting a station that holds no slot keeps ascending station number (R1). -/
theorem insertSlot_ascending (x : Slot) (xs : List Slot) (h : xs.Pairwise (fun a b => a.station < b.station))
    (hn : ∀ y ∈ xs, y.station ≠ x.station) : (insertSlot x xs).Pairwise (fun a b => a.station < b.station) := by
  induction xs with
  | nil => simp [insertSlot]
  | cons y ys ih =>
    have hy := List.pairwise_cons.mp h
    unfold insertSlot
    split
    · rename_i hlt
      refine List.pairwise_cons.mpr ⟨?_, h⟩
      intro z hz
      rcases List.mem_cons.mp hz with rfl | hz
      · exact hlt
      · exact Nat.lt_trans hlt (hy.1 z hz)
    · rename_i hge
      refine List.pairwise_cons.mpr ⟨?_, ih hy.2 (fun z hz => hn z (List.mem_cons_of_mem _ hz))⟩
      intro z hz
      rcases (insertSlot_mem x z ys).mp hz with rfl | hz
      · have hne : y.station.val ≠ z.station.val := fun h => hn y List.mem_cons_self (Fin.ext h)
        exact Nat.lt_of_le_of_ne (Nat.le_of_not_lt hge) hne
      · exact hy.1 z hz

theorem Entry.grant_gen (e : Entry) (v : Station) (m : LeaseMode) : (e.grant v m).gen = e.gen + 1 := rfl

theorem Entry.grant_waiters (e : Entry) (v : Station) (m : LeaseMode) : (e.grant v m).waiters = e.waiters := rfl

theorem Entry.grant_holders_length (e : Entry) (v : Station) (m : LeaseMode) :
    (e.grant v m).holders.length = e.holders.length + 1 := insertSlot_length _ _

theorem Entry.dropHolder_gen (e : Entry) (v : Station) : (e.dropHolder v).gen = e.gen := rfl

theorem Entry.dropHolder_waiters (e : Entry) (v : Station) : (e.dropHolder v).waiters = e.waiters := rfl

theorem Entry.dropHolder_holds (e : Entry) (v : Station) : (e.dropHolder v).holds v = false := by
  simp [Entry.dropHolder, Entry.holds]

theorem Entry.dropWaiter_gen (e : Entry) (v : Station) : (e.dropWaiter v).gen = e.gen := rfl

theorem Entry.dropWaiter_holders (e : Entry) (v : Station) : (e.dropWaiter v).holders = e.holders := rfl

theorem Entry.dropWaiter_waits (e : Entry) (v : Station) : (e.dropWaiter v).waits v = false := by
  simp [Entry.dropWaiter, Entry.waits]

theorem Entry.renew_waiters (e : Entry) (v : Station) : (e.renew v).waiters = e.waiters := rfl

theorem Entry.renew_stations (e : Entry) (v : Station) :
    (e.renew v).holders.map Slot.station = e.holders.map Slot.station := by
  simp only [Entry.renew, List.map_map]
  apply List.map_congr_left
  intro h _
  simp only [Function.comp_apply]
  split <;> rfl

/-! ## Promotion -/

theorem promoteFrom_stops (w : Waiter) (ws : List Waiter) (e : Entry) (h : e.admits w.mode = false) :
    promoteFrom (w :: ws) e = ({ e with waiters := w :: ws }, []) := by
  unfold promoteFrom; simp [h]

theorem promoteFrom_grants (w : Waiter) (ws : List Waiter) (e : Entry) (h : e.admits w.mode = true) :
    promoteFrom (w :: ws) e =
      ((promoteFrom ws { e.grant w.station w.mode with waiters := ws }).1,
       { station := w.station, mode := w.mode, gen := e.gen + 1 }
         :: (promoteFrom ws { e.grant w.station w.mode with waiters := ws }).2) := by
  rw [promoteFrom]; simp [h, Entry.grant]

/-- The generation advances once for each grant (R3, R11). -/
theorem promoteFrom_gen (ws : List Waiter) : ∀ e : Entry,
    (promoteFrom ws e).1.gen = e.gen + BitVec.ofNat 16 (promoteFrom ws e).2.length := by
  induction ws with
  | nil => intro e; simp [promoteFrom]
  | cons w ws ih =>
    intro e
    rcases h : e.admits w.mode with _ | _
    · rw [promoteFrom_stops w ws e h]; simp
    · rw [promoteFrom_grants w ws e h]
      simp only [List.length_cons]
      rw [ih]
      simp only [Entry.grant_gen]
      rw [BitVec.add_assoc]
      congr 1
      apply BitVec.eq_of_toNat_eq
      have one : BitVec.toNat (1 : Word16) = 1 := rfl
      simp only [BitVec.toNat_add, BitVec.toNat_ofNat, one]
      omega

/-- The waiters left are a tail of the waiters before. -/
theorem promoteFrom_waiters (ws : List Waiter) : ∀ e : Entry, (promoteFrom ws e).1.waiters <:+ ws := by
  induction ws with
  | nil => intro e; exact List.suffix_refl _
  | cons w ws ih =>
    intro e
    rcases h : e.admits w.mode with _ | _
    · rw [promoteFrom_stops w ws e h]; try exact List.suffix_refl _
    · rw [promoteFrom_grants w ws e h]; exact (ih _).trans (List.suffix_cons _ _)

end Sys2Proof
end

