-- ==== Sys2Proof/Tests/Slice0.lean ====
section
/-! SUPPORT. Tests: ill-formed commands refused, values of the spec's tables and worked sequences, one step of each kind
of command, and for every statement with hypotheses a state and operands that meet them. -/

namespace Sys2Proof.Tests

open Sys2Proof.Machine

-- One test at a time: checked together, they take a thread each.
set_option Elab.async false

/-! ## Well-formedness -/

theorem test_wf_config_of_17_bytes : Instr.wf (.writeConfig (List.replicate 17 0)) = true := by decide
theorem test_wf_refuses_config_of_16_bytes : Instr.wf (.writeConfig (List.replicate 16 0)) = false := by decide
theorem test_wf_refuses_config_of_18_bytes : Instr.wf (.writeConfig (List.replicate 18 0)) = false := by decide
theorem test_wf_refuses_known_code_as_unknown : Instr.wf (.unknownCommand 0x40) = false := by decide
theorem test_wf_unknown_code : Instr.wf (.unknownCommand 0x44) = true := by decide

/-- An entry with as many slots and waiters as asked for. -/
def crowded (h w : Nat) : Entry :=
  { mode := .shared, gen := 9, holders := (List.range h).map (fun i => { station := Fin.ofNat 32 i, gen := 1 }),
    waiters := (List.range w).map (fun i => { station := Fin.ofNat 32 (i + 10), mode := .exclusive }) }

/-- A SNAPSHOT frame of segment 1 with that entry in its first place. -/
def crowdedFrame (h w : Nat) : Frame :=
  { role := .member, sender := 3, inc := 2, baseTsn := 40,
    body := .snapshot 7 0 40 (.entries 0 #v[crowded h w, Entry.cleared, Entry.cleared, Entry.cleared]) }

theorem test_wf_full_entry : Instr.wf (.frameAccepted (.foreign (crowdedFrame 4 6))) = true := by decide
theorem test_wf_refuses_five_holders : Instr.wf (.frameAccepted (.foreign (crowdedFrame 5 0))) = false := by decide
theorem test_wf_refuses_seven_waiters : Instr.wf (.frameAccepted (.foreign (crowdedFrame 4 7))) = false := by decide

/-! ## Bytes on the line -/

/-- The check value of the CRC that R85 gives for the nine characters 1 to 9. -/
theorem test_crc_check_value : crc [0x31, 0x32, 0x33, 0x34, 0x35, 0x36, 0x37, 0x38, 0x39] = 0x29B1 := by decide +kernel

theorem test_claim_bytes :
    Frame.content { role := .member, sender := 7, inc := 1, baseTsn := 0x0128, body := .claim 44 .shared true (.host 5) }
      = [0x21, 0x27, 0x01, 0x01, 0x28, 0x2C, 0x01, 0x01, 0x05] := by decide +kernel

theorem test_join_bytes :
    Frame.content { role := .joiner, sender := 31, inc := 0, baseTsn := 0, body := .join 0xABCD 3 }
      = [0x31, 0x5F, 0x00, 0x00, 0x00, 0xAB, 0xCD, 0x03] := by decide +kernel

theorem test_surrender_release_bytes : Body.bytes (.release 63 .surrender) = [0x3F, 0x1F] := by decide +kernel
theorem test_join_refuse_bytes : Body.bytes (.joinRefuse 9 2) = [0x09, 0x02, 0x01] := by decide +kernel

theorem test_entry_record :
    entryRecBytes { mode := .exclusive, gen := 0x0102, holders := [{ station := 5, gen := 0x0102 }],
                    waiters := [{ station := 6, mode := .exclusive }, { station := 1, mode := .shared }] }
      = [0x8A, 0x01, 0x02, 0x05, 0x01, 0x02, 0, 0, 0, 0, 0, 0, 0, 0, 0, 0x86, 0x01, 0, 0, 0, 0] := by decide +kernel

theorem test_roster_record :
    rosterRecBytes { state := .member, providingFor := some 9, inc := 0x33 } = [0xA9, 0x33] := by decide +kernel

/-- Tables of chapter 11: what a frame holds the line for, in bit times. -/
theorem test_line_times :
    Frame.lineTime { role := .member, sender := 7, inc := 1, baseTsn := 0, body := .claim 44 .shared true (.host 5) } = 124
    ∧ Frame.lineTime { role := .member, sender := 7, inc := 1, baseTsn := 0, body := .renew 1 } = 100
    ∧ Frame.lineTime { role := .member, sender := 7, inc := 1, baseTsn := 0, body := .presence } = 92
    ∧ Frame.lineTime (crowdedFrame 4 6) = 804 := by decide +kernel

theorem test_unknown_kind_fails : bodyOf 0x26 [0x01] = none ∧ bodyOf 0x21 [64, 1, 0, 0] = none
    ∧ bodyOf 0x22 [0, 0x10] = none ∧ roleOf 0x87 = none := by decide +kernel

/-- A PRESENCE of station 3 read back from the line. -/
theorem test_presence_read_back :
    judge (Frame.readings { role := .member, sender := 3, inc := 2, baseTsn := 40, body := .presence })
      = .good { role := .member, sender := 3, inc := 2, baseTsn := 40, body := .presence } := by decide +kernel

theorem test_jam_is_a_collision : judge (.one :: List.replicate 16 .dominant) = .collision := by decide +kernel
theorem test_fifteen_dominant_fail : judge (.one :: List.replicate 15 .dominant) = .failed := by decide +kernel

theorem test_receiver_hysteresis : receiverLevel 900 false = true ∧ receiverLevel 500 true = false
    ∧ receiverLevel 700 true = true ∧ receiverLevel 700 false = false := by decide

/-! ## Small states -/

/-- The record of the examples: station 7, 1 Mbit/s, L 20, P 20, M 5, retry limit 8, K 10, N 4, Tn 20. -/
def cfg : ConfigRecord :=
  { station := 7, rate := .k1000, leaseTerm := 20, presencePeriod := 20, missLimit := 5, retryLimit := 8,
    keepPeriod := 10, irqThreshold := 4, irqIdle := 20,
    maps := #v[some { r := 3, qualifier := .any }, some { r := 20, qualifier := .exclusive }, none, none, none, none,
               none, none],
    digest := networkDigest .k1000 20 20 5 }

/-- After reset with CS# seen high. -/
def ready : State := { State.reset with port := .ready }

def configured : State := { ready with config := some cfg, gou := { ready.gou with maps := cfg.maps } }

/-- OFFLINE with a record and a qualified timebase. -/
def offline : State :=
  { configured with tm := { timebase := .reference, goodCount := 0, recovered := false },
                    lu := { configured.lu with clock := .refclk } }

def withStation (s : State) (x : StationState) : State := { s with sc := { s.sc with station := x } }
def withTm (s : State) (x : TimebaseState) (n : Nat) (r : Bool) : State :=
  { s with tm := { timebase := x, goodCount := n, recovered := r } }
def withTx (s : State) (x : TxState) (b : Option Nat) : State := { s with lu := { s.lu with tx := x, backoff := b } }
def withPower (s : State) (x : ResetPhase) (d : Bool) : State := { s with power := { phase := x, drivers := d } }
def withKp (s : State) (x : Permit) (n : Option Nat) : State := { s with kp := { permit := x, timer := n } }
def withNu (s : State) (n : NoteUnit) : State := { s with nu := n }

/-- A group of stations 3, 7 and 15; 7 holds 3 and 20, and waits on 44, which 3 holds. -/
def group : Replica :=
  { entries :=
      ((Replica.cleared.entries.set 3
          { mode := .exclusive, gen := 5, holders := [{ station := 7, gen := 5 }], waiters := [] }).set 20
          { mode := .shared, gen := 10, holders := [{ station := 7, gen := 9 }, { station := 15, gen := 10 }],
            waiters := [] }).set 44
          { mode := .exclusive, gen := 1, holders := [{ station := 3, gen := 1 }],
            waiters := [{ station := 7, mode := .shared }, { station := 15, mode := .shared }] }
    roster :=
      ((Replica.cleared.roster.set 3 { state := .member, inc := 2, provider := none, providingFor := none }).set 7
          { state := .member, inc := 1, provider := none, providingFor := none }).set 15
          { state := .member, inc := 4, provider := none, providingFor := none }
    tsn := 40
    mismatch := none }

def hold (r : Resource) (g : Word16) (n : Nat) : OwnHold :=
  { r := r, gen := g, elapsed := n, running := true, lapsed := false, renewal := .idle }

/-- Station 7 in MEMBER of that group. -/
def memb : State :=
  { offline with
    replica := group
    sc := { offline.sc with station := .member, ownInc := 1 }
    tu := { offline.tu with
      holds := [hold 3 5 0, hold 20 9 0]
      expiry := [{ r := 20, holder := 15, gen := 10, elapsed := 0, queued := false },
                 { r := 44, holder := 3, gen := 1, elapsed := 0, queued := false }]
      presence := [{ station := 3, inc := 2, elapsed := 0, queued := false },
                   { station := 15, inc := 4, elapsed := 0, queued := false }]
      presenceTimer := some 0 }
    kp := { permit := .early, timer := some 0 }
    gou := { offline.gou with active := #v[true, false, false, false, false, false, false, false] } }

/-- A roster entry without a provider. -/
def listed (x : RosterState) (i : Byte) (p : Option Station) : RosterEntry :=
  { state := x, inc := i, provider := none, providingFor := p }

/-- A request record. -/
def req (t : Fin 16) (k : RequestKind) (r : Resource) : Request :=
  { tag := t, kind := k, r := r, state := .queued, count := 0 }

def withRequests (s : State) (xs : List Request) : State := { s with requests := xs }

/-- A frame of a member whose base TSN is the group's. -/
def fromMember (v : Station) (i : Byte) (b : Body) : Frame :=
  { role := .member, sender := v, inc := i, baseTsn := 40, body := b }

def fromJoiner (v : Station) (b : Body) : Frame := { role := .joiner, sender := v, inc := 0, baseTsn := 0, body := b }

/-- The state with an attempt on the line. -/
def sending (s : State) (tx : TxState) (src : Source) (n : Nat) (b : Body) : State :=
  { s with lu := { s.lu with
      tx := tx, rx := .receive,
      current := some { frame := { role := s.ownRole, sender := 7, inc := s.sc.ownInc, baseTsn := s.replica.tsn,
                                   body := b },
                        source := src, count := n, withdrawn := false } } }

/-- JOIN_WAIT after the own JOIN. -/
def joining (n : Nat) : State :=
  { offline with
    sc := { offline.sc with station := .joinWait, attemptNo := n, joinAccepted := true, joinTimer := some 0 }
    tu := { offline.tu with presenceTimer := some 0 } }

/-- `joining` with the join wait timer at `t`. -/
def waited (n t : Nat) : State := { joining n with sc := { (joining n).sc with joinTimer := some t } }

/-- Roster records that list nobody. -/
def noRecords : Vector RosterRec 32 := Vector.replicate 32 { state := .absent, providingFor := none, inc := 0 }

/-- SNAPSHOT with segment 0 staged. -/
def snapshotting (n : Nat) : State :=
  { offline with
    sc := { offline.sc with
      station := .snapshot, attemptNo := n, joinAccepted := true, stallTimer := some 0, ownInc := 1
      staged := some { sender := 3, tsn := 41, roster := noRecords, entries := [], last := 0 } } }

/-- 32 records. -/
def fullNotes : NoteUnit := { queue := List.replicate 32 (.permit .restored), dropped := 1, idle := .running 3, irq := true }

def oneNote : NoteUnit := { queue := [.permit .restored], dropped := 0, idle := .running 3, irq := false }

/-- The state a command leads to. -/
def after (c : Instr) (s : State) : State := match exec c s with | .next t => t | .fault _ => s | .refused _ => s

/-! ## The lease table: the rows of section 1.11 for entry 40 -/

def slot (v : Station) (g : Word16) : Slot := { station := v, gen := g }
def shared (g : Word16) (hs : List Slot) (ws : List Waiter) : Entry :=
  { mode := .shared, gen := g, holders := hs, waiters := ws }
def exclusive (g : Word16) (hs : List Slot) (ws : List Waiter) : Entry :=
  { mode := .exclusive, gen := g, holders := hs, waiters := ws }
def waitExcl (v : Station) : Waiter := { station := v, mode := .exclusive }
def waitShrd (v : Station) : Waiter := { station := v, mode := .shared }

theorem test_row1_grant : ({ mode := .free, gen := 117, holders := [], waiters := [] } : Entry).claim 5 .shared true
    = shared 118 [slot 5 118] [] := by decide +kernel
theorem test_row3_waits_behind_a_waiter :
    (shared 118 [slot 5 118] [waitExcl 7]).claim 2 .shared true = shared 118 [slot 5 118] [waitExcl 7, waitShrd 2]
    ∧ (shared 118 [slot 5 118] [waitExcl 7, waitShrd 2]).decideClaim 11 .shared false = .refusedBusy := by decide +kernel
theorem test_row5_renewal : (shared 118 [slot 5 118] [waitExcl 7, waitShrd 2]).renew 5
    = shared 119 [slot 5 119] [waitExcl 7, waitShrd 2] := by decide +kernel
theorem test_row6_release : ((shared 119 [slot 5 119] [waitExcl 7, waitShrd 2]).dropHolder 5).promote
    = (exclusive 120 [slot 7 120] [waitShrd 2], [{ station := 7, mode := .exclusive, gen := 120 }]) := by decide +kernel
theorem test_row8_held : (exclusive 120 [slot 7 120] [waitShrd 2, waitShrd 11]).decideClaim 7 .shared true = .refusedHeld :=
  by decide +kernel
theorem test_row9_expire :
    (exclusive 120 [slot 7 120] [waitShrd 2, waitShrd 11]).holdsAt 7 120 = true
    ∧ ((exclusive 120 [slot 7 120] [waitShrd 2, waitShrd 11]).dropHolder 7).promote
      = (shared 122 [slot 2 121, slot 11 122] [], [{ station := 2, mode := .shared, gen := 121 },
          { station := 11, mode := .shared, gen := 122 }]) := by decide +kernel
theorem test_generation_wraps : ((exclusive 0xFFFF [slot 7 0xFFFF] []).renew 7).gen = 0 := by decide +kernel

/-! ## One step of each kind of command -/

theorem test_front_command_runs : step (ready.setPending [.readCause, .start])
    = exec .readCause (ready.setPending [.start]) := rfl

theorem test_read_status_after_reset : (after .readStatus ready).response
    = [0x00, 0, 0, 0, 0, 0, 0, 0, 0, 0, 0, 0, 0, 0] := by decide +kernel

theorem test_read_status_of_member : (after .readStatus memb).response
    = [0x00, 0x04, 0x00, 0x01, 0x01, 0x01, 0, 0, 0x01, 0, 0, 0, 40, 1] := by decide +kernel

theorem test_read_cause : (after .readCause ready).response = [0x00, 0x01] := by decide +kernel
theorem test_clear_cause : (after .clearCause ready).cause = { power := false, pin := false, command := false } := by
  decide +kernel

theorem test_config_read_back :
    (after .readConfig (after (.writeConfig cfg.bytes) ready)).response
      = [0x00, 7, 3, 20, 20, 5, 8, 10, 4, 20, 0x83, 0xD4, 0, 0, 0, 0, 0, 0,
         cfg.digest.extractLsb' 8 8, cfg.digest.extractLsb' 0 8] := by decide +kernel

theorem test_write_config_refused : (after (.writeConfig (cfg.bytes.set 4 1)) ready).response = [0x02]
    ∧ (after (.writeConfig cfg.bytes) memb).response = [0x01] := by decide +kernel

theorem test_start_queues_join : (after .start offline).sc.station = .joinWait
    ∧ (after .start offline).lu.integrating = true ∧ (after .start offline).lu.tx = .idle := by decide +kernel
theorem test_start_without_record : (after .start ready).response = [0x03] ∧ (after .start configured).response = [0x04] := by
  decide +kernel
theorem test_stop_in_member : (after .stop memb).nu.queue = [.station (.leaving .stopping .live) .stop]
    ∧ (after .stop memb).lu.tx = .defer := by decide +kernel

theorem test_claim_takes_lowest_tag :
    (after (.claim 9 2 1) (withRequests memb [req 0 .release 3, req 2 .release 20])).response = [0x00, 0x01] := by
  decide +kernel
theorem test_claim_of_held : (after (.claim 3 2 1) memb).response = [0x07, 0xFF]
    ∧ (after (.claim 44 2 1) memb).response = [0x09, 0xFF] ∧ (after (.claim 64 2 1) memb).response = [0x02, 0xFF] := by
  decide +kernel
theorem test_release_drops_line : (after (.release 3) memb).response = [0x00, 0x00]
    ∧ (after (.release 3) memb).grantPin 0 = .high ∧ memb.grantPin 0 = .low := by decide +kernel
theorem test_withdraw : (after (.withdraw 44) memb).response = [0x00, 0x00]
    ∧ (after (.withdraw 3) memb).response = [0x0A, 0xFF] := by decide +kernel

theorem test_keep_early_lapses : (after .keep memb).kp = { permit := .lapsed .early, timer := none }
    ∧ (after .keep memb).tu.surrender.map (fun m => (m.r, m.mark)) = [(3, .hold), (20, .hold), (44, .wait)]
    ∧ (after .keep memb).nu.queue = [.permit .lapsedEarly] := by decide +kernel

theorem test_read_note : (after .readNote (withNu ready oneNote)).response = [0x00, 0x08, 0x00, 0x00, 0x03]
    ∧ (after .noteRecordRemoved (after .readNote (withNu ready oneNote))).nu.queue = [] := by decide +kernel

theorem test_query_entry : (after (.queryEntry 44) memb).response
    = [0x00, 19, 44, 0x02, 0, 1, 1, 3, 0, 1, 2, 7, 1, 15, 1, 0, 40, 0, 0xFF, 0, 0] := by decide +kernel
theorem test_query_roster : (after (.queryRoster 3) memb).response = [0x00, 0x06, 0x02, 2, 0xFF, 0xFF, 0, 40] := by
  decide +kernel
theorem test_query_request :
    (after (.queryRequest 4) (withRequests memb [req 4 (.claim .exclusive true) 9])).response
      = [0x00, 0x07, 4, 1, 9, 2, 1, 1, 0] := by decide +kernel

theorem test_restore_timebase : (after .restoreTimebase (withTm memb .degraded 16 true)).tm.timebase = .reference := by
  decide +kernel

theorem test_reset_waits_for_cs : (after .commandReset (after .reset memb)).power.phase = .command
    ∧ (after .commandReset (after .reset memb)).config = some cfg
    ∧ (after .readStatus (after .reset memb)).port = .resetTaken := by decide +kernel

theorem test_pin_reset_drops_record : (after .pinReset memb).config = none
    ∧ (after .pinResetEnd (after .pinReset memb)).cause.pin = true := by decide +kernel

theorem test_sixteenth_window_qualifies :
    (after (.measurementWindowEnd 15680 false) (withTm configured .startup 15 false)).tm.timebase = .reference
    ∧ (after (.measurementWindowEnd 15679 false) (withTm configured .startup 15 false)).tm.goodCount = 0 := by
  decide +kernel

theorem test_attempt_start_sends_claim :
    (after .attemptStart (withTx (withRequests memb [req 0 (.claim .exclusive true) 9]) .defer none)).lineDrive
      = .sending (fromMember 7 1 (.claim 9 .exclusive true (.host 0))) := by decide +kernel

/-- Another frame on the line, a line held DOMINANT or a wait that has not begun keeps an attempt from starting. -/
theorem test_attempt_waits_for_the_line :
    (after .attemptStart (after (.receptionVeto [.one]) (withRequests memb [req 0 .release 3]))).lu.tx = .defer
    ∧ (after .attemptStart (after (.receptionVeto (List.replicate 30 .dominant))
        (withRequests memb [req 0 .release 3]))).lu.tx = .defer
    ∧ (after .attemptStart { withTx (withRequests memb [req 0 .release 3]) .backoff (some 0) with
        lu := { (withTx memb .backoff (some 0)).lu with backoffHeld := true } }).lu.tx = .backoff
    ∧ (after .attemptStart (withTx (withRequests memb [req 0 .release 3]) .backoff (some 0))).lu.tx = .send := by
  decide +kernel

/-- The bit times of the first bytes of a frame whose kind, role and body are these. -/
def beginning (kind : Byte) (body : List Byte) : List BitReading :=
  preamble ++ bitReadings (([kind, 0x23, 2, 0, 40] ++ body).flatMap byteBits)

/-- A body field out of range is a finding once its byte is read (R95, R201, R202). -/
theorem test_body_fields_found :
    [(0x21, [63, 3]), (0x21, [64]), (0x25, [9, 32]), (0x31, [0, 0, 4]), (0x42, [3, 0, 2]), (0x43, [3, 0, 17]),
      (0x43, [3, 0, 0, 0, 0, 0xC0]), (0x43, [3, 0, 1, 0, 0, 0x28]), (0x43, [3, 0, 1, 0, 0, 0x48, 0, 1, 32])].all
        (fun x => foundBad (beginning x.1 x.2)) = true
    ∧ [(0x21, [63, 2, 1, 0x1F, 0xFF]), (0x23, [63, 0xFF, 0xFF]), (0x25, [9, 31, 0xFF]), (0x33, [0xFF, 0xFF]),
      (0x43, [3, 0, 0, 0, 0, 0xBF, 0xFF]), (0x43, [3, 0, 1, 0, 0, 0x48, 0, 1, 31, 0, 1, 32])].all
        (fun x => !foundBad (beginning x.1 x.2)) = true
    ∧ (after (.receptionVeto (beginning 0x23 [64])) memb).lu.rxFailed = true
    ∧ (after (.receptionVeto (beginning 0x23 [63])) memb).lu.rxFailed = false := by decide +kernel

theorem test_sent_frame_has_no_finding :
    (List.range 128).all (fun i => !foundBad ((Frame.readings (fromMember 7 1 (.claim 63 .exclusive true .surrender))).take i))
    ∧ (List.range 40).all (fun i => !foundBad ((Frame.readings (crowdedFrame 4 6)).take (8 * i))) := by decide +kernel

theorem test_collision_backs_off :
    (after .collision (sending memb .send (.host 0) 0 (.release 3 (.host 0)))).lu.backoff = some 64
    ∧ (after .jamEnd (after .collision (sending memb .send (.host 0) 0 (.release 3 (.host 0))))).lu.tx = .backoff
    ∧ (after (.receptionVeto [.one, .zero, .zero]) (sending memb .send (.host 0) 0 (.release 3 (.host 0)))).lu.tx = .jam
    ∧ (after (.receptionVeto [.one, .zero, .one]) (sending memb .send (.host 0) 0 (.release 3 (.host 0)))).lu.tx = .send := by
  decide +kernel

/-- What station 7 reads of its RELEASE of 3 up to the end of the contention window. -/
def releaseWindow : List BitReading := (Frame.readings (fromMember 7 1 (.release 3 (.host 0)))).take 24

/-- Past the contention window a mismatch is no collision (R90). -/
theorem test_window_over_no_collision :
    (after .collision (after (.receptionVeto releaseWindow)
      (sending memb .send (.host 0) 0 (.release 3 (.host 0))))).lu.tx = .send
    ∧ (after .collision (after (.receptionVeto (releaseWindow.take 23))
      (sending memb .send (.host 0) 0 (.release 3 (.host 0))))).lu.tx = .jam := by decide +kernel

/-- Two refusal duties of one kind keep a count each: the first takes this attempt's, the second stays at 2 (R56, R92). -/
theorem test_refusals_count_apart :
    (after .frameVetoed { sending memb .send (.control (.joinRefuse 31 0)) 3 (.joinRefuse 31 0) with
        sc := { memb.sc with
          control := [{ kind := .joinRefuse 31 0, count := 3 }, { kind := .joinRefuse 31 0, count := 2 }] } }).sc.control
      = [{ kind := .joinRefuse 31 0, count := 4 }, { kind := .joinRefuse 31 0, count := 2 }] := by decide +kernel

/-- A backoff of 1600 bit times has 600 left a millisecond later at 1 Mbit/s, and ends in the next. -/
theorem test_backoff_counts_down :
    (match step (withTx memb .backoff (some 1600)) with
      | .next t => some (t.lu.backoff, t.pending)
      | .fault _ | .refused _ => none) = some (some 600, [])
    ∧ (match step (withTx memb .backoff (some 600)) with
      | .next t => some (t.lu.backoff, t.pending)
      | .fault _ | .refused _ => none) = some (some 0, [.backoffEnd]) := by decide +kernel

/-- The frame of the tests of the receiver. -/
def heardPresence : Frame := { role := .member, sender := 3, inc := 2, baseTsn := 40, body := .presence }

theorem test_receiver_follows_foreign_frame :
    (after (.receptionVeto ((Frame.readings heardPresence).take 20)) memb).lu.rx = .receive
    ∧ (after (.receptionVeto (Frame.readings heardPresence)) memb).lu.rx = .veto
    ∧ (after (.receptionVeto (Frame.readings heardPresence)) memb).lu.rxFrame = some heardPresence
    ∧ (after (.receptionVeto (Frame.readings heardPresence)) memb).lineDrive = .released
    ∧ (after (.receptionVeto ((Frame.readings heardPresence).set 12 .recessive)) memb).lineDrive = .dominant := by decide +kernel

theorem test_own_good_frame_watches_its_slot :
    (after (.receptionVeto (Frame.readings (fromMember 7 1 (.release 3 (.host 0)))))
      (sending memb .send (.host 0) 0 (.release 3 (.host 0)))).lu.tx = .veto := by decide +kernel

theorem test_late_dominant_run_of_own_frame_is_vetoed :
    (after (.receptionVeto (releaseWindow ++ List.replicate 16 .dominant ++ endMark))
      (sending memb .send (.host 0) 0 (.release 3 (.host 0)))).lu.tx = .veto
    ∧ (after (.receptionVeto (preamble ++ List.replicate 16 .dominant ++ endMark)) memb).lu.rx = .receive := by
  decide +kernel

/-- A collision is not vetoed after the timebase has failed either (R96, R105). -/
theorem test_collision_is_not_vetoed :
    (after (.receptionVeto (preamble ++ List.replicate 16 .dominant ++ endMark))
      { memb with lu := { memb.lu with rx := .receive, rxFailed := true, rxTimebase := true } }).lineDrive = .released := by
  decide +kernel

theorem test_timebase_fails_in_slot_of_good_frame :
    (after (.measurementWindowEnd 0 false) (after (.receptionVeto (Frame.readings heardPresence)) memb)).lineDrive = .dominant := by
  decide +kernel

theorem test_veto_of_cut_jam_is_not_counted :
    (after (.receptionVeto (List.replicate 9 .dominant ++ endMark)) (after (.measurementWindowEnd 0 false)
      (after .collision (sending memb .send (.host 0) 0 (.release 3 (.host 0)))))).lineDrive = .dominant
    ∧ (after (.receptionVeto (List.replicate 9 .dominant ++ endMark)) (after (.measurementWindowEnd 0 false)
      (after .collision (sending memb .send (.host 0) 0 (.release 3 (.host 0)))))).lu.vetoCount = 0 := by
  decide +kernel

theorem test_own_claim_accepted :
    (after (.frameAccepted .own) (sending (withRequests memb [req 0 (.claim .exclusive true) 9]) .veto (.host 0) 0
      (.claim 9 .exclusive true (.host 0)))).nu.queue = [.done 0 .granted 9] := by decide +kernel

theorem test_foreign_release_grants :
    (after (.frameAccepted (.foreign (fromMember 3 2 (.release 44 (.host 1))))) memb).nu.queue = [.granted 44 .shared]
    ∧ (after (.frameAccepted (.foreign (fromMember 3 2 (.release 44 (.host 1))))) memb).replica.entries[(44 : Resource)]
      = shared 3 [slot 7 2, slot 15 3] [] := by decide +kernel

theorem test_self_lapse :
    (after (.selfLapse 3) { memb with tu := { memb.tu with holds := [hold 3 5 2000] } }).nu.queue = [.lost 3 .lapsed]
    ∧ (after (.selfLapse 3) { memb with tu := { memb.tu with holds := [hold 3 5 2000] } }).grantPin 0 = .high
    ∧ (after (.selfLapse 3) { memb with tu := { memb.tu with holds := [hold 3 5 1999] } }).nu.queue = [] := by decide +kernel

theorem test_founding : (after .joinWaitTimeout (waited 0 800)).sc.station = .member
    ∧ (after .joinWaitTimeout (waited 0 800)).replica.tsn = 1
    ∧ (after .joinWaitTimeout (waited 0 799)).sc.station = .joinWait
    ∧ (after .presenceDue (after .joinWaitTimeout (waited 0 800))).tu.presenceOffer = none := by decide +kernel

theorem test_window_then_late_lapse :
    (after .keepWindowOpen (withKp memb .early (some 500))).kp.permit = .window
    ∧ (after .keepPeriodEnd (withKp memb .window (some 1000))).kp.permit = .lapsed .late
    ∧ (after .keepPeriodEnd (withKp memb .window (some 999))).kp.permit = .window := by decide +kernel

/-- VDD rises past the power-on rising threshold after `before`, RESET# being low there or not (R197). -/
def risen (pinLow : Bool) (before : State) : State := after (.supplyDriveThreshold (.powerOnRising pinLow)) before

/-- RESET# held low into the hold time, from a pin reset or from below the drive threshold, goes on as a pin reset and sets
PIN when it has ended; a low in the hold time that has ended there sets PIN with POWER. -/
theorem test_pin_low_in_hold_time :
    (after .powerOnResetEnd (risen true (after .powerOnReset (after .pinReset memb)))).power.phase = .pin
    ∧ (after .pinResetEnd (after .powerOnResetEnd (risen true (after .powerOnReset (after .pinReset memb))))).cause
      = { power := true, pin := true, command := false }
    ∧ (after .pinResetEnd (after .powerOnResetEnd (risen true (after (.supplyDriveThreshold .driveRising) (after .pinReset
        (after (.supplyDriveThreshold .driveFalling) memb)))))).cause = { power := true, pin := true, command := false }
    ∧ (after .powerOnResetEnd (after .pinResetEnd (after .pinReset (risen false (after .powerOnReset memb))))).cause
      = { power := true, pin := true, command := false } := by
  decide +kernel

/-- A RESET# that is high again before the rising threshold sets nothing, be it over below the drive threshold, between
the two thresholds, in its ending span when the hold time begins, or in a hold time that VDD cut short. -/
theorem test_pin_high_before_hold_time :
    (after .powerOnResetEnd (risen false (after (.supplyDriveThreshold .driveRising) (after .pinResetEnd (after .pinReset
        (after (.supplyDriveThreshold .driveFalling) memb)))))).cause = { power := true, pin := false, command := false }
    ∧ (after .powerOnResetEnd (risen false (after .pinResetEnd (after .pinReset (after (.supplyDriveThreshold .driveRising)
        (after (.supplyDriveThreshold .driveFalling) memb)))))).cause = { power := true, pin := false, command := false }
    ∧ (after .powerOnResetEnd (after .pinResetEnd (risen false (after .pinReset (after .powerOnReset memb))))).cause
      = { power := true, pin := false, command := false }
    ∧ (after .powerOnResetEnd (risen false (after .powerOnReset (after .pinResetEnd (after .pinReset (risen false
        (after .powerOnReset memb))))))).cause = { power := true, pin := false, command := false }
    ∧ after .powerOnResetEnd (after .powerOnReset memb) = after .powerOnReset memb
    ∧ risen true memb = memb := by
  decide +kernel

theorem test_bytes_name_commands :
    hostCommandOf [0x40, 9, 2, 1, 0xFF] = .claim 9 2 1 ∧ hostCommandOf [0x40, 9, 2] = .transactionAborted
    ∧ hostCommandOf (0x20 :: cfg.bytes) = .writeConfig cfg.bytes ∧ hostCommandOf [0x44, 1] = .unknownCommand 0x44 := by
  decide +kernel

/-- SDO in a READ_CAUSE after reset: 00h, status 00h, cause 01h, 00h. -/
theorem test_sdo_bytes :
    (List.range 4).map (sdoByte (1 + argumentBytes .readCause) (after .readCause ready).response) = [0, 0, 1, 0]
    ∧ (after .readCause ready).sdoPin true .readCause 22 = .low
    ∧ (after .readCause ready).sdoPin true .readCause 23 = .high
    ∧ (after .readCause ready).sdoPin false .readCause 23 = .highZ := by decide +kernel

theorem test_word_spells_nothing : State.reset.withFetchWord 8 0x40 = State.reset := by decide +kernel

/-! ## For every statement with hypotheses, a state and operands that meet them, clause by clause -/

theorem test_witness_EmptyQueuePassesOneMillisecond : memb.pending = []
    ∧ (withTx memb .backoff (some 64)).pending = [] ∧ (withTx memb .backoff (some 64)).lu.tx = .backoff
    ∧ (withTx memb .backoff (some 64)).lu.backoffHeld = false := by decide +kernel

theorem test_witness_ClosedPortTakesNoCommand :
    isHostCommand .start = true ∧ isHostCommand .transactionAborted = true
    ∧ ¬(State.reset.power.phase = .running ∧ (State.reset.port = .ready ∨ State.reset.port = .noteOut))
    ∧ ¬((withPower ready .pin true).power.phase = .running ∧ True) := by decide +kernel

theorem test_witness_EveryResetGivesResetValues :
    ((after .reset memb).power.phase = .running ∧ (after .reset memb).port = .resetTaken)
    ∧ (∀ p : PowerOnReset, memb.power.phase ≠ .powerOn p) :=
  ⟨by decide +kernel, fun _ h => nomatch h⟩

theorem test_witness_ResetCauseRecord :
    memb.portOpen = true
    ∧ (risen false (after .powerOnReset memb)).power.phase
      = .powerOn { holding := true, pinActive := false, pinLow := false }
    ∧ (risen true (after .powerOnReset memb)).power.phase
      = .powerOn { holding := true, pinActive := true, pinLow := true }
    ∧ (after .pinResetEnd (risen true (after .powerOnReset memb))).power.phase
      = .powerOn { holding := true, pinActive := false, pinLow := true }
    ∧ (after .powerOnReset (after .pinReset memb)).power.phase
      = .powerOn { holding := false, pinActive := true, pinLow := false }
    ∧ (withPower State.reset .pin true).power.phase = .pin
    ∧ (withPower State.reset .command true).power.phase = .command := by decide +kernel

theorem test_witness_SupplyDriveThreshold :
    (after (.supplyDriveThreshold .driveFalling) memb).power
      = { phase := .powerOn { holding := false, pinActive := false, pinLow := false }, drivers := false }
    ∧ (∀ p : PowerOnReset, memb.power.phase ≠ .powerOn p)
    ∧ ((withPower State.reset .pin true).power.drivers = true ∧ (withPower State.reset .pin true).power.phase ≠ .running) :=
  ⟨by decide +kernel, (fun _ h => nomatch h), by decide +kernel⟩

theorem test_witness_PortTransactions :
    memb.portOpen = true ∧ State.reset.power.phase = .running ∧ State.reset.port = .waitHigh := by decide +kernel

theorem test_witness_SerialTransactionBytes :
    (List.replicate 17 (0 : Byte)).length = 17 ∧ (List.replicate 16 (0 : Byte)).length < 17
    ∧ ([9, 2] : List Byte).length < 3 ∧ (0x62 : Byte) ∈ ([0x41, 0x42, 0x60, 0x61, 0x62] : List Byte)
    ∧ (0x44 : Byte) ∉ ([0x10, 0x11, 0x12, 0x20, 0x21, 0x30, 0x31, 0x32, 0x3F, 0x40, 0x41, 0x42, 0x43, 0x50, 0x51,
        0x60, 0x61, 0x62] : List Byte)
    ∧ 3 < 1 + argumentBytes (.claim 9 2 1) ∧ (after (.claim 9 2 1) memb).response[1]? = some 0
    ∧ (after (.claim 9 2 1) memb).response.length ≤ 2
    ∧ memb.power = { phase := .running, drivers := true } ∧ State.reset.power.drivers = true
    ∧ (withPower memb .pin true).power.phase ≠ .running ∧ (withPower memb .running false).power.drivers = false := by
  decide +kernel

theorem test_witness_ReadStatusReports : memb.portOpen = true ∧ (withNu { memb with port := .noteOut } oneNote).portOpen = true := by
  decide +kernel

theorem test_witness_ReadConfigReturnsRecord :
    memb.portOpen = true ∧ memb.config = some cfg ∧ ready.portOpen = true ∧ ready.config = none := by decide +kernel

theorem test_witness_NoteCountReadsOnly : (withNu ready fullNotes).portOpen = true := by decide +kernel

theorem test_witness_TableQueriesGiveEntries :
    memb.portOpen = true ∧ (63 : Byte).toNat = (63 : Resource).val ∧ 64 ≤ (64 : Byte).toNat
    ∧ (31 : Byte).toNat = (31 : Station).val ∧ 32 ≤ (32 : Byte).toNat := by decide +kernel

theorem test_witness_QueryRequestGivesRecord :
    (withRequests memb [req 15 .release 3]).portOpen = true
    ∧ (∃ q ∈ (withRequests memb [req 15 .release 3]).requests, (15 : Byte).toNat = q.tag.val)
    ∧ ((withRequests memb [req 15 .release 3]).requests.map Request.tag).Nodup
    ∧ ((14 : Byte).toNat < 16 ∧ ∀ q ∈ (withRequests memb [req 15 .release 3]).requests, (14 : Byte).toNat ≠ q.tag.val)
    ∧ 16 ≤ (16 : Byte).toNat := by decide +kernel

/-- The records at both ends of every range. -/
def cfgLow : ConfigRecord :=
  { cfg with rate := .k250, leaseTerm := 1, presencePeriod := 1, missLimit := 2, keepPeriod := 0, irqThreshold := 1,
             irqIdle := 1, digest := networkDigest .k250 1 1 2 }
def cfgHigh : ConfigRecord :=
  { cfg with rate := .k1000, leaseTerm := 255, presencePeriod := 255, missLimit := 15, retryLimit := 16,
             keepPeriod := 255, irqThreshold := 16, irqIdle := 255, digest := networkDigest .k1000 255 255 15 }

theorem test_witness_ReadConfigReturnsRecord_inRange : cfg.inRange ∧ cfgLow.inRange ∧ cfgHigh.inRange := by
  unfold ConfigRecord.inRange; decide +kernel

/-- A lease term of 0 is spelled by no record in range. -/
theorem test_no_record_spells_lease_term_zero (c : ConfigRecord) (h : c.inRange) : c.bytes ≠ cfg.bytes.set 2 0 := by
  intro e
  have h2 : byteOf c.leaseTerm = 0 := by
    have := congrArg (fun x => x[2]?) e
    simpa [ConfigRecord.bytes, cfg] using this
  have h3 := congrArg BitVec.toNat h2
  have h4 := h.1
  simp [byteOf] at h3
  omega

theorem test_witness_WriteConfigReplacesRecord :
    (offline.portOpen = true ∧ cfgHigh.inRange ∧ offline.sc.station = .offline)
    ∧ (memb.portOpen = true ∧ cfgLow.inRange ∧ memb.sc.station ≠ .offline)
    ∧ ((cfg.bytes.set 2 0).length = 17 ∧ ∀ c : ConfigRecord, c.inRange → c.bytes ≠ cfg.bytes.set 2 0) :=
  ⟨by unfold ConfigRecord.inRange; decide +kernel, by unfold ConfigRecord.inRange; decide +kernel, by decide +kernel,
   test_no_record_spells_lease_term_zero⟩

theorem test_witness_StartMakesJoinStart :
    (offline.portOpen = true ∧ offline.sc.station = .offline ∧ offline.config ≠ none
      ∧ offline.tm.timebase = .reference)
    ∧ (memb.portOpen = true ∧ memb.sc.station ≠ .offline)
    ∧ (ready.portOpen = true ∧ ready.sc.station = .offline ∧ ready.config = none)
    ∧ (configured.portOpen = true ∧ configured.sc.station = .offline ∧ configured.config ≠ none
      ∧ configured.tm.timebase ≠ .reference) := by decide +kernel

theorem test_witness_StopByStationState :
    ((withRequests memb [req 0 .release 3, req 1 (.claim .shared true) 9]).portOpen = true
      ∧ (withRequests memb [req 0 .release 3, req 1 (.claim .shared true) 9]).sc.station = .member)
    ∧ offline.sc.station = .offline
    ∧ (withStation memb (.leaving .stopping .live)).sc.station = .leaving .stopping .live
    ∧ (withStation offline .joinWait).sc.station = .joinWait ∧ (withStation offline .joinWait).sc.joinAccepted = false
    ∧ (withStation offline (.faulted .joinFailed)).sc.station = .faulted .joinFailed
    ∧ ((joining 0).sc.station = .joinWait ∧ (joining 0).sc.joinAccepted = true)
    ∧ (snapshotting 0).sc.station = .snapshot ∧ (withStation memb .synced).sc.station = .synced
    ∧ (withStation memb (.leaving .rejoin .live)).sc.station = .leaving .rejoin .live
    ∧ (∀ x ∈ [offline, withStation memb (.leaving .stopping .live), withStation offline .joinWait,
        withStation offline (.faulted .joinFailed), joining 0, snapshotting 0, withStation memb .synced,
        withStation memb (.leaving .rejoin .live)], x.portOpen = true) := by decide +kernel

theorem test_witness_ClaimQueuesRequest :
    memb.portOpen = true ∧ resourceOf 63 = some 63 ∧ modeOf 2 = some .exclusive ∧ waitOf 1 = some true
    ∧ claimStatus memb 63 2 1 = 0x00
    ∧ claimStatus memb 64 2 1 ≠ 0x00 ∧ claimStatus memb 63 3 1 ≠ 0x00 ∧ claimStatus memb 3 2 1 ≠ 0x00 := by decide +kernel

theorem test_witness_RemovalsQueueRequest :
    memb.portOpen = true ∧ resourceOf 3 = some 3 ∧ removalStatus memb 3 memb.holdsOwn 0x08 = 0x00
    ∧ (∃ m : LineMap, memb.gou.maps[(0 : Fin 8)] = some m ∧ m.r = 3)
    ∧ removalStatus memb 4 memb.holdsOwn 0x08 ≠ 0x00
    ∧ resourceOf 44 = some 44 ∧ removalStatus memb 44 memb.waitsOwn 0x0A = 0x00
    ∧ removalStatus memb 3 memb.waitsOwn 0x0A ≠ 0x00 :=
  ⟨by decide +kernel, by decide +kernel, by decide +kernel, ⟨_, rfl, rfl⟩, by decide +kernel⟩

theorem test_witness_KeepByPermitState :
    (ready.portOpen = true ∧ ready.config = none)
    ∧ (memb.portOpen = true ∧ memb.config = some cfg ∧ cfg.keepPeriod ≠ 0 ∧ memb.sc.station = .member
      ∧ memb.kp.permit = .early)
    ∧ (withKp memb .window (some 500)).kp.permit = .window
    ∧ (withKp memb (.lapsed .late) none).kp.permit = .lapsed .late
    ∧ (∀ x ∈ [withKp memb .window (some 500), withKp memb (.lapsed .late) none],
        x.portOpen = true ∧ x.config = some cfg ∧ x.sc.station = .member)
    ∧ offline.portOpen = true ∧ { memb with config := some cfgLow }.portOpen = true
    ∧ (offline.config = some cfg ∧ offline.sc.station ≠ .member) ∧ cfgLow.keepPeriod = 0
    ∧ { memb with config := some cfgLow }.config = some cfgLow := by decide +kernel

theorem test_witness_PeriodTimersReached :
    ((withKp memb .early (some 500)).kp = { permit := .early, timer := some 500 }
      ∧ 50 * memb.configField ConfigRecord.keepPeriod ≤ 500)
    ∧ 499 < 50 * memb.configField ConfigRecord.keepPeriod
    ∧ ((withKp memb .window (some 1000)).kp = { permit := .window, timer := some 1000 }
      ∧ 100 * memb.configField ConfigRecord.keepPeriod ≤ 1000)
    ∧ 999 < 100 * memb.configField ConfigRecord.keepPeriod
    ∧ ((withNu configured { oneNote with idle := .running 20 }).nu.idle = .running 20
      ∧ (withNu configured oneNote).config = some cfg ∧ cfg.irqIdle ≤ 20 ∧ 19 < cfg.irqIdle
      ∧ (withNu configured { oneNote with idle := .running 20 }).nu.queue ≠ []) := by decide +kernel

theorem test_witness_RestoreTimebaseReturnsToReference :
    (memb.portOpen = true ∧ memb.tm.timebase ≠ .degraded)
    ∧ ((withTm memb .degraded 15 false).tm.timebase = .degraded ∧ (withTm memb .degraded 15 false).tm.recovered = false
      ∧ (withTm memb .degraded 15 false).portOpen = true)
    ∧ ((withTm memb .degraded 16 true).tm.timebase = .degraded ∧ (withTm memb .degraded 16 true).tm.recovered = true
      ∧ (withTm memb .degraded 16 true).portOpen = true ∧ (withTm memb .degraded 16 true).sc.station = .member) := by
  decide +kernel

/-- `memb` with watches that stand at their thresholds. -/
def overdue : State :=
  { memb with tu := { memb.tu with
      expiry := [{ r := 44, holder := 3, gen := 1, elapsed := 2514, queued := false }]
      presence := [{ station := 3, inc := 2, elapsed := 1014, queued := false }] } }

/-- The verdict against the overdue holder is queued, and its attempt has begun. -/
def judging (tx : TxState) : State :=
  sending { overdue with tu := { overdue.tu with
      expiry := [{ r := 44, holder := 3, gen := 1, elapsed := 2514, queued := true }]
      verdicts := [{ verdict := .expire 44 3 1, count := 0 }, { verdict := .evict 3 2, count := 0 }] } }
    tx (.verdict (.expire 44 3 1)) 0 (.expire 44 3 1)

/-- STOP during a verdict's attempt withdraws the other verdict and not this one (R115): vetoed, it counts and backs off;
accepted, it is applied and ends. A verdict in backoff is withdrawn (log 40). -/
theorem test_stop_spares_verdict_in_attempt :
    (after .stop (judging .send)).tu.verdicts = [{ verdict := .expire 44 3 1, count := 0 }]
    ∧ (after .stop (judging .send)).lu.current = (judging .send).lu.current
    ∧ (after .frameVetoed (after .stop (judging .veto))).lu.tx = .backoff
    ∧ (after .frameVetoed (after .stop (judging .veto))).tu.verdicts = [{ verdict := .expire 44 3 1, count := 1 }]
    ∧ (after (.frameAccepted .own) (after .stop (judging .veto))).tu.verdicts = []
    ∧ (after (.frameAccepted .own) (after .stop (judging .veto))).replica.entries[(44 : Resource)].holds 3 = false
    ∧ (after .stop (after .frameVetoed (judging .veto))).tu.verdicts = [] := by decide +kernel

theorem test_witness_StopByStationState_verdict :
    (judging .veto).portOpen = true ∧ (judging .veto).sc.station = .member
    ∧ (judging .veto).lu.current.map Attempt.source = some (.verdict (.expire 44 3 1)) := by decide +kernel

theorem test_witness_RestoreTimebase_overdue :
    (∃ w ∈ overdue.tu.expiry, w.queued = false ∧ overdue.expiryMs ≤ w.elapsed)
    ∧ (∃ w ∈ overdue.tu.presence, w.queued = false ∧ overdue.evictionMs ≤ w.elapsed) := by decide +kernel

theorem test_witness_ReadNoteGivesHead :
    ((withNu ready oneNote).portOpen = true ∧ (withNu ready oneNote).nu.dropped = 0
      ∧ (withNu ready oneNote).nu.queue = [.permit .restored])
    ∧ 32 ≤ (withNu ready fullNotes).nu.queue.length
    ∧ (ready.portOpen = true ∧ ready.nu.dropped = 0 ∧ ready.nu.queue = [])
    ∧ (withNu ready { oneNote with dropped := 255 }).nu.dropped ≠ 0
    ∧ (withNu ready { fullNotes with queue := fullNotes.queue.tail }).nu.queue.length = 31
    ∧ (withNu ready { NoteUnit.afterReset with dropped := 1 }).nu.dropped ≠ 0
    ∧ (withNu ready { NoteUnit.afterReset with dropped := 1 }).nu.queue.length < 32
    ∧ (∀ n ∈ [fullNotes, { oneNote with dropped := 255 }, { fullNotes with queue := fullNotes.queue.tail },
        { NoteUnit.afterReset with dropped := 1 }], (withNu ready n).portOpen = true) := by decide +kernel

theorem test_witness_NotesArriveAndLeave :
    (after .readNote (withNu ready oneNote)).power.phase = .running
    ∧ (after .readNote (withNu ready oneNote)).port = .noteOut
    ∧ (after .readNote (withNu ready oneNote)).nu.queue = [.permit .restored]
    ∧ (after .readNote (withNu configured fullNotes)).port = .noteOut
    ∧ fullNotes.queue.tail.length < 32 ∧ 32 ≤ fullNotes.queue.length := by decide +kernel

theorem test_witness_WindowJudgement :
    memb.power.phase = .running ∧ (15680 ≤ 15680 ∧ 15680 ≤ 16320) ∧ (15680 ≤ 16320 ∧ 16320 ≤ 16320)
    ∧ ¬(15680 ≤ 15679 ∧ 15679 ≤ 16320) ∧ ¬(15680 ≤ 16321 ∧ 16321 ≤ 16320)
    ∧ ((withTm memb .startup 14 false).tm.timebase = .startup ∧ (withTm memb .startup 14 false).tm.goodCount < 15)
    ∧ 15 ≤ (withTm memb .startup 15 false).tm.goodCount
    ∧ memb.tm.timebase = .reference
    ∧ ((withTm memb .degraded 16 true).tm.timebase = .degraded ∧ (withTm memb .degraded 16 true).tm.recovered = true)
    ∧ ((withTm memb .degraded 14 false).tm.recovered = false ∧ (withTm memb .degraded 14 false).tm.goodCount < 15)
    ∧ ((withTm memb .degraded 15 false).tm.recovered = false ∧ 15 ≤ (withTm memb .degraded 15 false).tm.goodCount) := by
  decide +kernel

/-- `memb` with a hold at three quarters of the lease term. -/
def lateHold : State := { memb with tu := { memb.tu with holds := [hold 3 5 1500, hold 20 9 1499] } }

theorem test_witness_ReferenceFailureDegrades :
    lateHold.power.phase = .running ∧ lateHold.tm.timebase = .reference ∧ ¬(15680 ≤ 0 ∧ 0 ≤ 16320)
    ∧ lateHold.lu.tx ≠ .send ∧ lateHold.lu.tx ≠ .jam ∧ lateHold.lu.tx ≠ .veto ∧ lateHold.lu.rx = .idle
    ∧ (lateHold.tu.holds.filter (fun h => lateHold.sc.station == .member && !h.lapsed
        && decide (75 * lateHold.configField ConfigRecord.leaseTerm ≤ h.elapsed))).map OwnHold.r = [3]
    ∧ ((after (.receptionVeto (Frame.readings heardPresence)) lateHold).lu.rx = .veto
      ∧ (after (.receptionVeto (Frame.readings heardPresence)) lateHold).power.drivers = true
      ∧ (after (.receptionVeto (Frame.readings heardPresence)) lateHold).lu.tx = .defer)
    ∧ lateHold.listening = true := by decide +kernel

theorem test_witness_LineUnitEvents :
    ({ memb with lu := { memb.lu with clock := .internal } }.tm.timebase = .reference
      ∧ { memb with lu := { memb.lu with clock := .internal } }.lu.rx = .idle
      ∧ { memb with lu := { memb.lu with clock := .internal } }.lu.tx = .idle)
    ∧ ((after .start offline).lu.integrating = true ∧ (after .start offline).lu.tx = .idle)
    ∧ ((withTx memb .jam (some 64)).lu.tx = .jam ∧ (withTx memb .jam (some 64)).lu.backoff = some 64)
    ∧ (withTx memb .jam none).lu.backoff = none
    ∧ ((withTx memb .backoff (some 0)).lu.tx = .backoff ∧ (withTx memb .backoff (some 0)).lu.backoffHeld = false)
    ∧ (withTx memb .defer none).lu.tx = .defer ∧ (withTx memb .send none).lu.tx = .send := by decide +kernel

/-- `memb` with that many vetoes counted in a row. -/
def vetoed (n : Nat) : State := { memb with lu := { memb.lu with vetoCount := n, rx := .receive } }

theorem test_witness_AttemptStartSendsFirstCandidate :
    ((vetoed 0).lu.rx ≠ .idle ∧ offline.listening = false ∧ memb.lu.rx = .idle
      ∧ ((withTx memb .backoff (some 0)).lu.tx = .backoff ∧ (withTx memb .backoff (some 0)).lu.backoff = some 0
        ∧ (withTx memb .backoff (some 0)).lu.backoffHeld = false ∧ (withTx memb .backoff (some 64)).lu.backoff ≠ some 0)
      ∧ { withTx memb .backoff (some 0) with lu := { (withTx memb .backoff (some 0)).lu with
          backoffHeld := true } }.lu.backoffHeld = true)
    ∧ ((withTx (withRequests memb [req 0 .release 3]) .defer none).listening = true
      ∧ (withTx (withRequests memb [req 0 .release 3]) .defer none).lu.tx = .defer
      ∧ (withTx (withRequests memb [req 0 .release 3]) .defer none).candidates = [(req 0 .release 3).candidateOf]
      ∧ (withTx (withRequests memb [req 0 .release 3]) .defer none).mayBeSent (.host 0))
    ∧ ((withTx memb .defer none).listening = true ∧ (withTx memb .defer none).candidates = [])
    ∧ ((withRequests memb [req 0 .release 9]).holdsOwn 9 = false
      ∧ (withRequests memb [req 0 .release 9]).candidates = [(req 0 .release 9).candidateOf]) :=
  ⟨by decide +kernel,
   ⟨by decide +kernel, by decide +kernel, by decide +kernel, (State.attemptCheck_iff _ _).mp (by decide +kernel)⟩,
   by decide +kernel, by decide +kernel⟩

/-- Station 7, MEMBER and in DEFER, with a candidate of each source whose check fails: a RENEW of 9, which it does not
hold, an EXPIRE and an EVICT that name nothing listed, a surrender frame of 9, a WITHDRAW of 9 and a PRESENCE with the timer
below P. -/
def untimely (holds : List OwnHold) (verdicts : List VerdictItem) (surrender : List SurrenderItem) (qs : List Request)
    (presence : Option Nat) : State :=
  withTx (withRequests { memb with tu := { memb.tu with
    holds := holds, verdicts := verdicts, surrender := surrender, presenceOffer := presence, presenceTimer := some 0 } } qs)
    .defer none

def lapsedCandidate : OwnHold := { hold 9 1 0 with lapsed := true, renewal := .candidate 2 }
def staleExpire : VerdictItem := { verdict := .expire 44 3 9, count := 0 }
def staleEvict : VerdictItem := { verdict := .evict 3 9, count := 0 }
def staleSurrender : SurrenderItem := { r := 9, mark := .hold, count := 0 }

theorem test_witness_AttemptStartSendsFirstCandidate_check :
    (∀ x ∈ [(untimely [lapsedCandidate] [] [] [] none, Source.renew 9),
        (untimely [] [staleExpire] [] [] none, .verdict (.expire 44 3 9)),
        (untimely [] [staleEvict] [] [] none, .verdict (.evict 3 9)),
        (untimely [] [] [staleSurrender] [] none, .surrender 9),
        (untimely [] [] [] [req 4 .withdraw 9, req 5 .release 3] none, .host 4), (untimely [] [] [] [] (some 0), .presence)],
      x.1.listening = true ∧ x.1.lu.rx = .idle ∧ x.1.lu.tx = .defer ∧ x.1.candidates.head?.map Candidate.source = some x.2
      ∧ ¬ x.1.mayBeSent x.2)
    ∧ (untimely [] [] [] [req 4 .withdraw 9, req 5 .release 3] none).requests.find? (fun x => x.tag == 4)
      = some (req 4 .withdraw 9) :=
  ⟨fun x hx => by
    rw [← State.attemptCheck_iff]
    revert x; decide +kernel, by decide +kernel⟩

/-- The next candidate is taken at the same attempt start: five that fail their checks, and then the RELEASE of 3 (R102). -/
theorem test_attempt_start_goes_on :
    (after .attemptStart (untimely [lapsedCandidate] [staleExpire, staleEvict] [staleSurrender]
      [req 4 .withdraw 9, req 5 .release 3] (some 0))).lu.current.map Attempt.source = some (.host 5)
    ∧ (after .attemptStart (untimely [lapsedCandidate] [staleExpire, staleEvict] [staleSurrender]
      [req 4 .withdraw 9, req 5 .release 3] (some 0))).nu.queue = [.done 4 .notWaiting 9]
    ∧ (after .attemptStart (untimely [] [] [] [] (some 0))).lu.tx = .idle
    ∧ (after .attemptStart (untimely [] [] [] [] (some 0))).tu.presenceOffer = none := by decide +kernel

/-- An attempt of station 7 whose frame is a host RELEASE of 3, at attempt count `n`. -/
def releasing (tx : TxState) (n : Nat) : State :=
  sending (withRequests memb [{ req 0 .release 3 with state := .onAir, count := n }]) tx (.host 0) n (.release 3 (.host 0))

/-- The current attempt of `releasing`. -/
def releaseAttempt (n : Nat) : Attempt :=
  { frame := fromMember 7 1 (.release 3 (.host 0)), source := .host 0, count := n, withdrawn := false }

theorem test_witness_ReferenceFailureCutsAttempt :
    ((releasing .send 6).power.phase = .running ∧ (releasing .send 6).tm.timebase = .reference
      ∧ (releasing .send 6).lu.tx = .send ∧ (releasing .send 6).lu.current = some (releaseAttempt 6)
      ∧ (releaseAttempt 6).withdrawn = false ∧ (releaseAttempt 6).count + 1 < (releasing .send 6).retryLimit
      ∧ (releaseAttempt 6).source = .host 0
      ∧ (after (.measurementWindowEnd 0 false) (releasing .send 6)).sc.station.onLine = (releasing .send 6).sc.station.onLine)
    ∧ ((releasing .veto 7).lu.tx = .veto ∧ (releasing .veto 7).retryLimit ≤ (releaseAttempt 7).count + 1
      ∧ (releasing .veto 7).requests.find? (fun x => x.tag == 0)
        = some { req 0 .release 3 with state := .onAir, count := 7 })
    ∧ { releaseAttempt 7 with withdrawn := true }.withdrawn = true
    ∧ ((withTx memb .jam (some 64)).lu.tx = .jam ∧ (withTx memb .jam (some 64)).lu.backoff ≠ none
      ∧ (withTx memb .jam none).lu.backoff = none) := by decide +kernel

/-- The attempt of a state with that source, count and body. -/
def ownAttempt (s : State) (src : Source) (n : Nat) (b : Body) : Attempt :=
  { frame := { role := s.ownRole, sender := 7, inc := s.sc.ownInc, baseTsn := s.replica.tsn, body := b },
    source := src, count := n, withdrawn := false }

/-- An attempt in its veto slot that is vetoed there. -/
theorem fails_vetoed (s : State) (src : Source) (n : Nat) (b : Body) :
    (sending s .veto src n b).fails (ownAttempt s src n b) .frameVetoed
      { (sending s .veto src n b).lu.cleared with tx := .idle, current := none, backoff := none } :=
  ⟨rfl, Or.inl ⟨rfl, Or.inr rfl, rfl⟩⟩

theorem test_witness_FailedAttemptBacksOff :
    (∃ l, (releasing .veto 6).fails (releaseAttempt 6) .frameVetoed l)
    ∧ (∃ l, (releasing .send 6).fails (releaseAttempt 6) .collision l)
    ∧ (∃ l, (releasing .send 6).fails (releaseAttempt 6) (.receptionVeto [.one, .dominant]) l)
    ∧ ((releaseAttempt 6).withdrawn = false ∧ (releaseAttempt 6).count + 1 < (releasing .veto 6).retryLimit)
    ∧ ((after (.receptionVeto releaseWindow) (releasing .send 6)).lu.tx = .send
      ∧ (after (.receptionVeto releaseWindow) (releasing .send 6)).lu.current = some (releaseAttempt 6)
      ∧ (after (.receptionVeto releaseWindow) (releasing .send 6)).lu.rxRead = releaseWindow ∧ releaseWindow.length = 24
      ∧ ¬ meetsAnother (releaseAttempt 6).frame releaseWindow)
    ∧ memb.lu.tx = .idle :=
  ⟨⟨_, fails_vetoed _ _ _ _⟩,
   ⟨_, rfl, Or.inr ⟨_, rfl, Or.inl ⟨rfl, rfl, Or.inl (by decide +kernel)⟩, rfl⟩⟩,
   ⟨_, rfl, Or.inr ⟨_, rfl, Or.inr ⟨rfl, by decide +kernel, (collides_iff _ _).mp (by decide +kernel)⟩, rfl⟩⟩,
   by decide +kernel, ⟨by decide +kernel, by decide +kernel, by decide +kernel, by decide +kernel,
    fun h => absurd ((collides_iff _ _).mpr h) (by decide +kernel)⟩, by decide +kernel⟩

theorem test_witness_FailedAttemptBacksOff_control :
    ([{ kind := .joinRefuse 31 0, count := 6 }, { kind := .joinRefuse 31 0, count := 2 }] : List ControlItem)
      = [] ++ { kind := .joinRefuse 31 0, count := 6 } :: [{ kind := .joinRefuse 31 0, count := 2 }]
    ∧ (∃ l, (sending memb .veto (.control (.joinRefuse 31 0)) 6 (.joinRefuse 31 0)).fails
        (ownAttempt memb (.control (.joinRefuse 31 0)) 6 (.joinRefuse 31 0)) .frameVetoed l)
    ∧ (∃ l, (sending memb .veto (.renew 3) 6 (.renew 3)).fails (ownAttempt memb (.renew 3) 6 (.renew 3)) .frameVetoed l) :=
  ⟨rfl, ⟨_, fails_vetoed _ _ _ _⟩, ⟨_, fails_vetoed _ _ _ _⟩⟩

/-- A RENEW that fails below the retry limit stays a candidate with its count raised (R92). -/
theorem test_failed_renew_keeps_count :
    ((after .frameVetoed (sending { lateHold with tu := { lateHold.tu with
        holds := [{ hold 3 5 1500 with renewal := .candidate 6 }] } } .veto (.renew 3) 6 (.renew 3))).tu.holds.map
      OwnHold.renewal) = [.candidate 7] := by decide +kernel

theorem test_witness_RetryLimitAbandonsRequest :
    (∃ l, (releasing .veto 7).fails (releaseAttempt 7) .frameVetoed l)
    ∧ (releaseAttempt 7).withdrawn = false ∧ (releaseAttempt 7).source = .host 0
    ∧ (releasing .veto 7).retryLimit ≤ (releaseAttempt 7).count + 1
    ∧ (releasing .veto 7).requests.find? (fun x => x.tag == 0)
        = some { req 0 .release 3 with state := .onAir, count := 7 }
    ∧ (releasing .veto 7).kp.permit.isLapsed = false
    ∧ (withKp (releasing .veto 7) (.lapsed .late) none).kp.permit.isLapsed = true
    ∧ (releasing .veto 7).holdsOwn 3 = true ∧ (releasing .veto 7).surrendering 3 = false
    ∧ (releasing .veto 7).waitsOwn 44 = true
    ∧ { releaseAttempt 7 with withdrawn := true }.withdrawn = true :=
  ⟨⟨_, fails_vetoed _ _ _ _⟩, by decide +kernel⟩

/-- A shadow copy for station 31, at its segment 3. -/
def shadow3 (n : Nat) : Shadow :=
  { roster := group.roster, entries := group.entries, tsn := 40, joiner := 31, attempt := 0, next := 3, requeue := n,
    givenUp := false, count := 7 }

theorem test_witness_RetryLimitAbandonsOtherFrames :
    (∀ x ∈ [(Source.renew 3, Body.renew 3), (.surrender 3, .release 3 .surrender), (.presence, .presence),
        (.control (.joinRefuse 31 0), .joinRefuse 31 0), (.control .ready, .ready),
        (.verdict (.expire 44 3 1), .expire 44 3 1), (.verdict (.evict 3 2), .evict 3 2), (.segment 3, .ready)],
      ∃ l, (sending overdue .veto x.1 7 x.2).fails (ownAttempt overdue x.1 7 x.2) .frameVetoed l)
    ∧ overdue.retryLimit ≤ 7 + 1
    ∧ { overdue with sc := { overdue.sc with shadow := some (shadow3 3) } }.sc.shadow = some (shadow3 3)
    ∧ ((withStation memb .synced).sc.station = .synced ∧ memb.sc.readyRequeue < 3)
    ∧ (∃ w ∈ overdue.tu.expiry, w.r = 44 ∧ w.holder = 3 ∧ w.gen = 1 ∧ overdue.expiryMs ≤ w.elapsed)
    ∧ (∀ w ∈ overdue.tu.expiry, ∀ w' ∈ overdue.tu.expiry, w'.r = w.r → w'.holder = w.holder → w' = w)
    ∧ (∃ w ∈ overdue.tu.presence, w.station = 3 ∧ w.inc = 2 ∧ overdue.evictionMs ≤ w.elapsed)
    ∧ (∀ w ∈ overdue.tu.presence, ∀ w' ∈ overdue.tu.presence, w'.station = w.station → w' = w) :=
  ⟨fun _ _ => ⟨_, fails_vetoed _ _ _ _⟩, by decide +kernel⟩

theorem test_witness_ReceiverFollowsReception :
    ((vetoed 30).listening = true ∧ (vetoed 30).lu.tx ≠ .jam ∧ (vetoed 30).lu.rx ≠ .veto
      ∧ (vetoed 30).lu.rxTimebase = false ∧ (vetoed 30).lu.vetoCount + 1 < 32)
    ∧ (endMarkRead (.one :: endMark) = true ∧ judge (.one :: endMark) = .failed)
    ∧ (endMarkRead (releaseWindow ++ List.replicate 16 .dominant ++ endMark) = true
      ∧ judge (releaseWindow ++ List.replicate 16 .dominant ++ endMark) = .collision ∧ (releasing .send 0).lu.tx = .send
      ∧ Frame.collides (releaseAttempt 0).frame (releaseWindow ++ List.replicate 16 .dominant ++ endMark) = false)
    ∧ ({ vetoed 30 with lu := { (vetoed 30).lu with rxFailed := true, rxTimebase := true } }.lu.rxTimebase = true)
    ∧ (judge (Frame.readings heardPresence) = .good heardPresence ∧ (vetoed 30).lu.rxFailed = false)
    ∧ (vetoed 30).lu.tx ≠ .send ∧ endMarkRead [.one, .zero] = false
    ∧ ((withTx memb .jam none).lu.tx = .jam ∧ (after (.receptionVeto (Frame.readings heardPresence)) memb).lu.rx = .veto) := by
  decide +kernel

theorem test_hears (s : State) (f : Frame) (h1 : s.listening = true) (h2 : s.lu.sending = false)
    (h3 : s.lu.rxFailed = false) (h4 : f.wf = true) : s.hears f := by
  simp only [LineUnit.sending, Bool.or_eq_false_iff, beq_eq_false_iff_ne] at h2
  exact ⟨h1, h2.1.1, h2.1.2, h2.2, h3, h4⟩

theorem test_witness_LineFaultsTheStation :
    (memb.hears (fromMember 7 9 .presence) ∧ (fromMember 7 9 .presence).sender = memb.own)
    ∧ ((joining 3).hears (fromMember 3 2 (.joinRefuse 7 3)) ∧ (joining 3).own = 7
      ∧ (joining 3).sc.attemptNo = 3 ∧ (joining 3).sc.station = .joinWait ∧ (joining 3).sc.joinAccepted = true)
    ∧ ((snapshotting 0).hears (fromMember 3 2 (.joinRefuse 7 0)) ∧ (snapshotting 0).sc.station = .snapshot)
    ∧ ((vetoed 31).listening = true ∧ (vetoed 31).lu.tx = .idle ∧ 32 ≤ (vetoed 31).lu.vetoCount + 1
      ∧ (vetoed 31).lu.rx ≠ .veto ∧ (vetoed 31).lu.rxTimebase = false ∧ endMarkRead endMark = true
      ∧ judge endMark = .failed)
    ∧ ((releasing .send 6).listening = true ∧ (releasing .send 6).lu.rx ≠ .veto
      ∧ (releasing .send 6).lu.current = some (releaseAttempt 6)
      ∧ Frame.collides (releaseAttempt 6).frame (releaseWindow ++ endMark) = false
      ∧ judge (releaseWindow ++ endMark) = .failed ∧ endMarkRead (releaseWindow ++ endMark) = true
      ∧ (releaseAttempt 6).count + 1 < (releasing .send 6).retryLimit) := by
  unfold State.hears; decide +kernel

theorem test_witness_ReceiverReadsSentFrame :
    (crowdedFrame 4 6).wf = true ∧ (fromMember 31 255 (.expire 63 31 0xFFFF)).wf = true := by decide +kernel

theorem test_witness_AcceptedPresenceRestartsWatch :
    overdue.hears (fromMember 3 2 .presence) ∧ (3 : Station) ≠ overdue.own ∧ overdue.sc.station = .member
    ∧ overdue.tu.presence.any (fun w => w.station == 3 && w.inc == 2) = true
    ∧ (withStation memb .synced).hears (fromMember 3 9 .presence)
    ∧ (withStation memb (.leaving .rejoin .live)).hears (fromMember 3 9 .presence) := by
  unfold State.hears; decide +kernel

/-- A table frame of station 3 in step with `memb`. -/
def fromThree (b : Body) : Frame := fromMember 3 2 b

theorem test_witness_AcceptedTableFrameActs :
    (∀ b ∈ [Body.claim 63 .exclusive true (.host 15), .release 44 (.host 1), .renew 44, .withdraw 44 .surrender,
        .expire 3 7 5], memb.hears (fromThree b) ∧ (tableResource b).isSome = true)
    ∧ (3 : Station) ≠ memb.own ∧ memb.sc.station.live = true
    ∧ (∀ x ∈ [StationState.synced, .leaving .stopping .live, .leaving .rejoin .live],
      (withStation memb x).sc.station.live = true ∧ (withStation memb x).hears (fromThree (.renew 44)))
    ∧ memb.replica.roster[(3 : Station)].state = .member
    ∧ (fromThree (.renew 44)).inc = memb.replica.roster[(3 : Station)].inc
    ∧ (fromThree (.renew 44)).baseTsn = memb.replica.tsn
    ∧ memb.replica.entries[(3 : Resource)].holdsAt memb.own 5 = true
    ∧ (∀ r : Resource, memb.replica.entries[r].consistent = true)
    ∧ (memb.hears { fromThree (.renew 44) with inc := 9 } ∧ memb.replica.roster[(3 : Station)].inc ≠ 9)
    ∧ memb.hears (fromJoiner 3 (.renew 44)) := by unfold State.hears; decide +kernel

/-- Station 7 claims 9, which is free. -/
def claiming (p : Permit) (r : Resource) : State :=
  sending (withRequests (withKp memb p none) [{ req 0 (.claim .exclusive true) r with state := .onAir }]) .veto (.host 0) 0
    (.claim r .exclusive true (.host 0))

/-- The attempt of `claiming`. -/
def claimAttempt (r : Resource) : Attempt := ownAttempt memb (.host 0) 0 (.claim r .exclusive true (.host 0))

/-- An own frame that is a stray: its incarnation is not the one listed. -/
def strayed (s : State) : State := { s with replica := { group with roster := group.roster.set 7 (listed .member 2 none) } }

theorem test_witness_OwnClaimCompletes :
    (claiming .early 9).sent (claimAttempt 9) ∧ (claimAttempt 9).source = .host 0
    ∧ (claimAttempt 9).frame = fromMember 7 1 (.claim 9 .exclusive true (.host 0))
    ∧ (claiming .early 9).sc.station.live = true ∧ (claiming .early 9).own = 7
    ∧ (claiming .early 9).replica.roster[(7 : Station)] = listed .member 1 none
    ∧ (claiming .early 9).requests.find? (fun x => x.tag == 0) = some { req 0 (.claim .exclusive true) 9 with state := .onAir }
    ∧ (claiming (.lapsed .late) 9).replica.entries[(9 : Resource)].decideClaim 7 .exclusive true = .granted
    ∧ (claiming (.lapsed .late) 9).kp.permit.isLapsed = true
    ∧ { memb with replica := { group with entries := group.entries.set 9 (shared 1 [slot 3 1] []) } }.replica.entries[
        (9 : Resource)].decideClaim 7 .exclusive true = .waiting
    ∧ ((after .stop (claiming .early 9)).sent { claimAttempt 9 with withdrawn := true }
      ∧ (after .stop (claiming .early 9)).sc.station = .leaving .stopping .live
      ∧ (after .stop (claiming .early 9)).requests = [])
    ∧ ((strayed (claiming .early 9)).sent (claimAttempt 9)
      ∧ (strayed (claiming .early 9)).replica.roster[(7 : Station)].inc ≠ (claimAttempt 9).frame.inc) := by
  unfold State.sent; decide +kernel

/-- A CLAIM cancelled by STOP before its application: the grant stands, the record opens, and no DONE appears; and a CLAIM
that is a stray. -/
theorem test_claim_cancelled_or_stray :
    (after (.frameAccepted .own) (after .stop (claiming .early 9))).replica.entries[(9 : Resource)].holds 7 = true
    ∧ (after (.frameAccepted .own) (after .stop (claiming .early 9))).tu.holds.any (fun h => h.r == 9) = true
    ∧ (after (.frameAccepted .own) (after .stop (claiming .early 9))).nu = (after .stop (claiming .early 9)).nu
    ∧ (after (.frameAccepted .own) (strayed (claiming .early 9))).nu.queue = [.done 0 .stray 9]
    ∧ (after (.frameAccepted .own) (strayed (claiming .early 9))).replica.entries = group.entries := by decide +kernel

/-- Station 7 surrenders 3. -/
def surrendering3 : State :=
  sending { memb with tu := { memb.tu with surrender := [{ r := 3, mark := .hold, count := 0 }] } } .send (.surrender 3) 0
    (.release 3 .surrender)

theorem test_witness_OwnRemovalApplied :
    surrendering3.sent (ownAttempt memb (.surrender 3) 0 (.release 3 .surrender))
    ∧ (releasing .veto 0).sent (releaseAttempt 0)
    ∧ (sending memb .veto (.host 4) 0 (.withdraw 44 (.host 4))).sent (ownAttempt memb (.host 4) 0 (.withdraw 44 (.host 4)))
    ∧ ((strayed surrendering3).sent (ownAttempt memb (.surrender 3) 0 (.release 3 .surrender))
      ∧ (strayed (releasing .veto 0)).sent (releaseAttempt 0)
      ∧ (strayed surrendering3).replica.roster[(7 : Station)].inc ≠ (releaseAttempt 0).frame.inc
      ∧ (withStation surrendering3 (.leaving .stopping .live)).sc.station.live = true)
    ∧ (surrendering3.sc.station.live = true ∧ surrendering3.replica.roster[surrendering3.own].state = .member
      ∧ surrendering3.own = 7 ∧ surrendering3.replica.roster[surrendering3.own].inc = 1 ∧ memb.ownRole = .member)
    ∧ memb.holdsOwn 3 = true ∧ memb.holdsOwn 9 = false ∧ memb.waitsOwn 44 = true ∧ memb.waitsOwn 9 = false
    ∧ memb.waitsOwn 3 = false := by
  unfold State.sent; decide +kernel

/-- A surrender RELEASE that is a stray leaves the set without a record; a host RELEASE is told STRAY (R7, R30). -/
theorem test_stray_removals :
    (after (.frameAccepted .own) (strayed surrendering3)).surrendering 3 = false
    ∧ (after (.frameAccepted .own) (strayed surrendering3)).nu.queue = []
    ∧ (after (.frameAccepted .own) (strayed surrendering3)).replica.entries = group.entries
    ∧ (after (.frameAccepted .own) (strayed (releasing .veto 0))).nu.queue = [.done 0 .stray 3] := by decide +kernel

theorem test_witness_OwnRenewAccepted :
    (∀ r ∈ [(3 : Resource), 9], (sending memb .veto (.renew r) 0 (.renew r)).sent (ownAttempt memb (.renew r) 0 (.renew r)))
    ∧ memb.sc.station = .member ∧ memb.own = 7 ∧ memb.ownRole = .member
    ∧ memb.replica.roster[memb.own].state = .member ∧ memb.sc.ownInc = memb.replica.roster[memb.own].inc
    ∧ memb.holdsOwn 3 = true ∧ memb.holdsOwn 9 = false
    ∧ { memb with sc := { memb.sc with ownInc := 9 } }.sc.ownInc ≠ memb.replica.roster[memb.own].inc := by
  unfold State.sent; decide +kernel

theorem test_witness_OwnVerdictAccepted :
    (sending overdue .veto (.verdict (.expire 44 3 1)) 0 (.expire 44 3 1)).sent
        (ownAttempt overdue (.verdict (.expire 44 3 1)) 0 (.expire 44 3 1))
    ∧ (sending overdue .veto (.verdict (.evict 3 2)) 0 (.evict 3 2)).sent
        (ownAttempt overdue (.verdict (.evict 3 2)) 0 (.evict 3 2))
    ∧ overdue.sc.station = .member ∧ overdue.own = 7 ∧ (3 : Station) ≠ overdue.own
    ∧ overdue.replica.entries[(44 : Resource)].waits 3 = false
    ∧ overdue.replica.entries[(44 : Resource)].holdsAt 3 1 = true
    ∧ overdue.replica.entries[(44 : Resource)].holdsAt 3 9 = false
    ∧ overdue.lawfulFor 3
    ∧ overdue.ownRole = .member ∧ overdue.sc.ownInc = overdue.replica.roster[overdue.own].inc
    ∧ { overdue with sc := { overdue.sc with ownInc := 9 } }.sc.ownInc ≠ overdue.replica.roster[overdue.own].inc := by
  unfold State.sent State.lawfulFor; decide +kernel

/-- This station is leaving. -/
def leaves (i : LeaveIntent) (x : LeaveReplica) : State :=
  withStation { memb with sc := { memb.sc with control := [{ kind := .leave, count := 7 }] } } (.leaving i x)

theorem test_witness_LeavingEnds :
    (∀ i ∈ [LeaveIntent.stopping, .rejoin], ∀ x ∈ [LeaveReplica.live, .cleared],
      (leaves i x).sc.station = .leaving i x
      ∧ (sending (leaves i x) .veto (.control .leave) 7 .leave).sent (ownAttempt (leaves i x) (.control .leave) 7 .leave)
      ∧ (leaves i x).own = 7 ∧ (leaves i x).retryLimit ≤ 7 + 1)
    ∧ (∃ l, (sending (leaves .stopping .live) .veto (.control .leave) 7 .leave).fails
        (ownAttempt (leaves .stopping .live) (.control .leave) 7 .leave) .frameVetoed l)
    ∧ ((leaves .rejoin .live).hears (fromMember 15 4 (.evict 7 1)) ∧ (15 : Station) ≠ (leaves .rejoin .live).own
      ∧ (leaves .rejoin .live).replica.roster[(7 : Station)] = listed .member 1 none
      ∧ (leaves .rejoin .live).replica.tsn = 40
      ∧ (leaves .rejoin .live).validActor (fromMember 15 4 (.evict 7 1)) = true)
    ∧ (∀ r : Resource, ¬(memb.replica.entries[r].holds 7 = true ∧ memb.replica.entries[r].waits 7 = true)) :=
  ⟨by unfold State.sent; decide +kernel, ⟨_, fails_vetoed _ _ _ _⟩, by unfold State.hears; decide +kernel, by decide +kernel⟩

theorem test_witness_AcceptedRemovalRemovesStation :
    (memb.hears (fromMember 3 2 .leave) ∧ memb.hears (fromMember 15 4 (.evict 3 2)))
    ∧ (3 : Station) ≠ memb.own ∧ (15 : Station) ≠ memb.own ∧ memb.sc.station = .member ∧ memb.replica.tsn = 40
    ∧ memb.replica.roster[(3 : Station)] = listed .member 2 none
    ∧ memb.replica.roster[(15 : Station)] = listed .member 4 none
    ∧ memb.replica.roster[memb.own].state = .member
    ∧ memb.lawfulFor 3
    ∧ (memb.hears (fromMember 3 2 .ready) ∧ memb.replica.roster[(3 : Station)].state ≠ .joining)
    ∧ (memb.hears (fromMember 3 9 .leave) ∧ (9 : Byte) ≠ memb.replica.roster[(3 : Station)].inc)
    ∧ memb.hears (fromMember 15 4 (.evict 3 9)) := by
  unfold State.hears State.lawfulFor; decide +kernel

/-- `memb` with station 3 providing for station 31. -/
def provided31 : State :=
  { memb with replica := { group with
      roster := (group.roster.set 3 (listed .member 2 (some 31))).set 31
        { state := .joining, inc := 5, provider := some 3, providingFor := none } } }

/-- Station 3 leaves: 44 goes to the waiters, and its joiner 31 is left without a provider. -/
theorem test_leave_promotes_and_ends_pairing :
    (after (.frameAccepted (.foreign (fromMember 3 2 .leave))) memb).nu.queue = [.granted 44 .shared, .membership 3 .left]
    ∧ (after (.frameAccepted (.foreign (fromMember 3 2 .leave))) provided31).replica.roster[(31 : Station)]
      = listed .joining 5 none := by decide +kernel

/-- `memb` with every station but the joiner unlisted. -/
def withNoMember : State := { memb with replica := { group with roster := Replica.cleared.roster } }

theorem test_witness_AcceptedJoinListsStation :
    (memb.hears (fromJoiner 31 (.join memb.digest 3)) ∧ memb.hears (fromJoiner 31 (.join 0 0)) ∧ memb.digest ≠ 0)
    ∧ (31 : Station) ≠ memb.own ∧ memb.replica.roster[(31 : Station)].state = .absent ∧ memb.sc.station = .member
    ∧ memb.freeProvider 31 = some 3
    ∧ { memb with replica := { group with roster := group.roster.set 3 (listed .member 2 (some 9)) } }.freeProvider 31
      = some memb.own
    ∧ (memb.hears (fromJoiner 3 (.join memb.digest 1)) ∧ (3 : Station) ≠ memb.own
      ∧ memb.replica.roster[(3 : Station)].state ≠ .absent ∧ memb.lawfulFor 3)
    ∧ withNoMember.freeProvider 31 = none := by
  unfold State.hears State.lawfulFor; decide +kernel

/-- Station 7 sends its JOIN, and its READY in SYNCED. -/
def sendsJoin : State :=
  sending { offline with sc := { offline.sc with station := .joinWait, control := [{ kind := .join, count := 0 }] } } .send
    (.control .join) 0 (.join offline.digest 0)
def sendsReady : State :=
  sending { memb with
    sc := { memb.sc with station := .synced, control := [{ kind := .ready, count := 0 }] }
    replica := { group with roster := group.roster.set 7 (listed .joining 1 none) } } .veto (.control .ready) 0 .ready

theorem test_witness_OwnUnappliedFramesAccepted :
    (sendsJoin.sent (ownAttempt sendsJoin (.control .join) 0 (.join offline.digest 0))
      ∧ sendsJoin.sc.station = .joinWait)
    ∧ ((sending memb .veto (.segment 3) 0 (.snapshot 31 0 40 (.roster noRecords))).sent
        (ownAttempt memb (.segment 3) 0 (.snapshot 31 0 40 (.roster noRecords))) ∧ (shadow3 0).next = 3)
    ∧ (sending memb .veto (.control (.joinRefuse 31 0)) 0 (.joinRefuse 31 0)).sent
        (ownAttempt memb (.control (.joinRefuse 31 0)) 0 (.joinRefuse 31 0))
    ∧ (sending memb .send .presence 0 .presence).sent (ownAttempt memb .presence 0 .presence)
    ∧ memb.sc.station = .member ∧ (leaves .stopping .live).sc.station = .leaving .stopping .live
    ∧ (withStation memb .synced).sc.station = .synced := by unfold State.sent; decide +kernel

/-- `sendsReady` with station 3 providing for station 7. -/
def providedReady : State :=
  { sendsReady with replica := { sendsReady.replica with
      roster := (sendsReady.replica.roster.set 7
        { state := .joining, inc := 1, provider := some 3, providingFor := none }).set 3 (listed .member 2 (some 7)) } }

/-- `memb` providing for station 31, which is JOINING. -/
def providing31 : State :=
  { memb with
    replica := { group with
      roster := (group.roster.set 7 (listed .member 1 (some 31))).set 31
        { state := .joining, inc := 5, provider := some 7, providingFor := none } }
    sc := { memb.sc with shadow := some (shadow3 0) } }

theorem test_witness_ReadyMakesMember :
    (∀ s ∈ [sendsReady, providedReady], s.sc.station = .synced ∧ s.own = 7
      ∧ s.sent (ownAttempt sendsReady (.control .ready) 0 .ready) ∧ s.replica.roster[(7 : Station)].state = .joining
      ∧ (1 : Byte) = s.replica.roster[(7 : Station)].inc)
    ∧ providedReady.replica.roster[(7 : Station)].provider = some 3
    ∧ (providing31.hears { fromJoiner 31 .ready with inc := 5 } ∧ (31 : Station) ≠ providing31.own
      ∧ providing31.sc.station = .member ∧ providing31.replica.roster[(31 : Station)].state = .joining
      ∧ (5 : Byte) = providing31.replica.roster[(31 : Station)].inc
      ∧ providing31.replica.roster[(31 : Station)].provider = some providing31.own) := by
  unfold State.sent State.hears; decide +kernel

/-- Segment 0 with station 7 JOINING. -/
def joiningRecords : Vector RosterRec 32 := noRecords.set 7 { state := .joining, providingFor := none, inc := 1 }

/-- Segment 15 is awaited. -/
def fifteenthAwaited : State :=
  { snapshotting 0 with sc := { (snapshotting 0).sc with staged := some {
      sender := 3, tsn := 41, roster := joiningRecords, entries := List.replicate 56 Entry.cleared, last := 14 } } }

/-- A segment of four cleared entries. -/
def clearedSegment (i : Fin 16) : Frame :=
  fromThree (.snapshot 7 0 41 (.entries i #v[Entry.cleared, Entry.cleared, Entry.cleared, Entry.cleared]))

theorem test_witness_JoinerStagesAndRecords :
    ((joining 3).hears (fromThree (.snapshot 7 3 41 (.roster joiningRecords))) ∧ (joining 3).own = 7
      ∧ (joining 3).sc.station = .joinWait ∧ (joining 3).sc.joinAccepted = true ∧ (joining 3).sc.attemptNo = 3
      ∧ joiningRecords[(7 : Station)].state = .joining)
    ∧ ((snapshotting 0).hears (clearedSegment 0) ∧ fifteenthAwaited.hears (clearedSegment 14)
      ∧ (snapshotting 0).sc.staged.map (fun x => (x.last, x.sender, x.tsn)) = some (0, 3, 41)
      ∧ fifteenthAwaited.sc.staged.map (fun x => (x.last, x.sender, x.tsn)) = some (14, 3, 41))
    ∧ ((snapshotting 0).hears (fromThree (.renew 44)) ∧ (fromThree (.renew 44)).body.isState = true
      ∧ { snapshotting 0 with sc := { (snapshotting 0).sc with
          catchUp := List.replicate 23 (fromThree (.renew 44)) } }.sc.catchUp.length < 24) := by
  unfold State.hears; decide +kernel

/-- JOIN_WAIT before the own JOIN is accepted. -/
def unheard : State := { joining 3 with sc := { (joining 3).sc with joinAccepted := false } }

theorem test_witness_JoinerStagesAndRecords_idle :
    ((joining 3).hears (fromJoiner 3 .presence) ∧ (joining 3).hears (fromThree (.joinRefuse 9 3))
      ∧ (joining 3).hears (fromThree (.snapshot 7 2 41 (.roster joiningRecords))) ∧ (9 : Station) ≠ (joining 3).own)
    ∧ (unheard.hears (fromThree .ready) ∧ unheard.sc.station = .joinWait ∧ unheard.sc.joinAccepted = false) := by
  unfold State.hears; decide +kernel

theorem test_founding_facts :
    (after (.frameAccepted (.foreign (fromJoiner 3 .presence))) (joining 3)).sc.lowerHeard = true
    ∧ (after (.frameAccepted (.foreign (fromJoiner 15 .presence))) (joining 3)).sc.lowerHeard = false
    ∧ (after (.frameAccepted (.foreign (fromThree .presence))) (joining 3)).sc.memberHeard = true
    ∧ (after (.frameAccepted (.foreign (clearedSegment 14))) fifteenthAwaited).sc.staged.map Staged.last = some 15 := by
  decide +kernel

/-- Segments 0 to 15 are staged. -/
def lastAwaited : State :=
  { snapshotting 0 with sc := { (snapshotting 0).sc with staged := some {
      sender := 3, tsn := 41, roster := joiningRecords, entries := List.replicate 60 Entry.cleared, last := 15 } } }

def lastSegment : Frame :=
  fromThree (.snapshot 7 0 41 (.entries 15 #v[shared 9 [slot 3 9] [], Entry.cleared, Entry.cleared, Entry.cleared]))

theorem test_witness_LastSegmentLoadsSnapshot :
    lastAwaited.hears lastSegment ∧ lastSegment.sender ≠ lastAwaited.own ∧ lastAwaited.sc.station = .snapshot
    ∧ lastAwaited.sc.staged.map (fun x => (x.last, x.entries.length, x.sender, x.tsn)) = some (15, 60, 3, 41)
    ∧ lastAwaited.own = 7 ∧ lastAwaited.sc.attemptNo = 0 ∧ lastAwaited.sc.catchUp = [] := by
  unfold State.hears; decide +kernel

theorem test_last_segment_loads : (after (.frameAccepted (.foreign lastSegment)) lastAwaited).sc.station = .synced
    ∧ (after (.frameAccepted (.foreign lastSegment)) lastAwaited).tu.expiry.map (fun w => (w.r, w.holder)) = [(60, 3)] := by
  decide +kernel

/-- `lastAwaited` with stations 3 and 15 listed as MEMBER and these frames recorded. -/
def recorded (gs : List Frame) : State :=
  { lastAwaited with sc := { lastAwaited.sc with
      catchUp := gs
      staged := some {
        sender := 3, tsn := 41, entries := List.replicate 60 Entry.cleared, last := 15,
        roster := (joiningRecords.set 3 { state := .member, providingFor := some 7, inc := 2 }).set 15
          { state := .member, providingFor := none, inc := 4 } } } }

/-- What `recorded` loads. -/
def loadedWith (gs : List Frame) : State := after (.frameAccepted (.foreign lastSegment)) (recorded gs)

/-- A READY of station 15, which the snapshot lists as JOINING, recorded. -/
def readyOf15 : Frame := { fromJoiner 15 .ready with inc := 4 }
def recordedReady : State :=
  { lastAwaited with sc := { lastAwaited.sc with
      catchUp := [readyOf15]
      staged := some {
        sender := 3, tsn := 41, entries := List.replicate 60 Entry.cleared, last := 15,
        roster := joiningRecords.set 15 { state := .joining, providingFor := none, inc := readyOf15.inc } } } }

theorem test_witness_LastSegmentLoadsSnapshot_replay :
    (∀ b ∈ [Body.claim 9 .exclusive true (.host 0), .release 60 (.host 0), .join lastAwaited.digest 0, .join 0 0, .leave,
        .evict 15 4],
      (recorded [fromThree b]).hears lastSegment ∧ (fromThree b).body.isState = true
      ∧ (fromThree b).sender ≠ (recorded []).own)
    ∧ ((recorded []).sc.station = .snapshot ∧ (recorded []).own = 7 ∧ (recorded []).sc.shadow = none
      ∧ (recorded []).sc.staged.map (fun x => (x.last, x.entries.length, x.sender, x.tsn)) = some (15, 60, 3, 41)
      ∧ (recorded []).sc.staged.map (fun x => x.roster[(7 : Station)].state) = some .joining
      ∧ (∀ e ∈ List.replicate 60 Entry.cleared ++ [shared 9 [slot 3 9] [], Entry.cleared, Entry.cleared, Entry.cleared],
          e.holds 7 = false ∧ e.waits 7 = false))
    ∧ ((recordedReady.hears lastSegment ∧ Body.ready.isState = true ∧ readyOf15.sender ≠ recordedReady.own)
      ∧ recordedReady.sc.catchUp = [readyOf15] ∧ recordedReady.sc.shadow = none
      ∧ (after (.frameAccepted (.foreign lastSegment))
          { recordedReady with sc := { recordedReady.sc with catchUp := [] } }).replica.roster[(15 : Station)]
        = { state := .joining, inc := readyOf15.inc, provider := none, providingFor := none })
    ∧ ((loadedWith []).replica.roster[(31 : Station)].state = .absent ∧ (loadedWith []).lawfulFor 3
      ∧ (loadedWith []).lawfulFor 15 ∧ (loadedWith []).replica.roster[(15 : Station)].inc = 4
      ∧ (loadedWith []).validActor (fromThree (.evict 15 4)) = true) := by
  unfold State.hears State.lawfulFor; decide +kernel

/-- Records replayed: a RELEASE, a JOIN, a LEAVE and a READY (R53, R67). -/
theorem test_replay_applies_records :
    (loadedWith [fromThree (.release 60 (.host 0)), fromJoiner 31 (.join lastAwaited.digest 0)]).replica.tsn = 43
    ∧ (loadedWith [fromThree (.release 60 (.host 0))]).replica.entries[(60 : Resource)]
      = { mode := .free, gen := 9, holders := [], waiters := [] }
    ∧ (loadedWith [fromJoiner 31 (.join lastAwaited.digest 0)]).replica.roster[(31 : Station)]
      = { state := .joining, inc := 1, provider := some 15, providingFor := none }
    ∧ (loadedWith [fromThree .leave]).nu.queue = []
    ∧ (after (.frameAccepted (.foreign lastSegment)) recordedReady).replica.roster[(15 : Station)] = listed .member 4 none := by
  decide +kernel

/-- A RENEW of station 15 built against TSN 39, and the record of one of station 3 before it. -/
def outOfStep : Frame := { role := .member, sender := 15, inc := 4, baseTsn := 39, body := .renew 20 }
def mismatched (v : Option Station) : State := { memb with replica := { group with mismatch := v } }

theorem test_witness_DivergenceAndEvictionEndMembership :
    (mismatched (some 15)).hears outOfStep
    ∧ ((mismatched (some 3)).hears outOfStep ∧ (15 : Station) ≠ memb.own ∧ (mismatched (some 3)).sc.station = .member
      ∧ (tableResource outOfStep.body).isSome = true ∧ outOfStep.baseTsn ≠ (mismatched (some 3)).replica.tsn
      ∧ (mismatched (some 3)).replica.mismatch = some 3 ∧ (3 : Station) ≠ outOfStep.sender)
    ∧ ((mismatched none).hears outOfStep ∧ (mismatched none).replica.mismatch = none
      ∧ (mismatched (some 15)).replica.mismatch = some outOfStep.sender)
    ∧ ((withStation (mismatched (some 3)) .synced).hears outOfStep
      ∧ (withStation memb .synced).hears (fromMember 15 4 (.evict 7 1)) ∧ (withStation memb .synced).sc.station = .synced)
    ∧ (memb.hears (fromMember 15 4 (.evict 7 1)) ∧ memb.own = 7 ∧ memb.replica.roster[memb.own] = listed .member 1 none
      ∧ ∀ r : Resource, ¬(memb.replica.entries[r].holds memb.own = true ∧ memb.replica.entries[r].waits memb.own = true)) := by
  unfold State.hears; decide +kernel

theorem test_second_mismatch_leaves :
    (after (.frameAccepted (.foreign outOfStep)) (mismatched (some 3))).sc.station = .leaving .rejoin .live
    ∧ (after (.frameAccepted (.foreign outOfStep)) (mismatched none)).sc.station = .member
    ∧ (after (.frameAccepted (.foreign (fromMember 15 4 (.evict 7 1)))) memb).nu.queue = [.station .joinWait .evicted] := by
  decide +kernel

theorem test_witness_DueThresholdsOfferFrames_renewal :
    (∃ h ∈ lateHold.tu.holds, h.r = 3 ∧ 50 * lateHold.configField ConfigRecord.leaseTerm ≤ h.elapsed
      ∧ h.renewal = .idle ∧ h.lapsed = false)
    ∧ lateHold.sc.station = .member ∧ lateHold.surrendering 3 = false ∧ lateHold.releasePending 3 = false
    ∧ lateHold.kp.permit.isLapsed = false
    ∧ (∀ h ∈ memb.tu.holds, h.r = 3 → h.elapsed < 50 * memb.configField ConfigRecord.leaseTerm) := by decide +kernel

theorem test_witness_SelfLapseSurrendersHold :
    lateHold.sc.station = .member
    ∧ (∃ h ∈ { lateHold with tu := { lateHold.tu with holds := [hold 3 5 2000] } }.tu.holds,
        h.r = 3 ∧ h.lapsed = false ∧ 100 * lateHold.configField ConfigRecord.leaseTerm ≤ h.elapsed)
    ∧ ((withTm lateHold .degraded 0 false).tm.timebase = .degraded
      ∧ ∃ h ∈ lateHold.tu.holds, h.r = 3 ∧ h.lapsed = false ∧ 75 * lateHold.configField ConfigRecord.leaseTerm ≤ h.elapsed)
    ∧ lateHold.releasePending 3 = false ∧ (∃ m : LineMap, lateHold.gou.maps[(0 : Fin 8)] = some m ∧ m.r = 3)
    ∧ (∀ h ∈ lateHold.tu.holds, h.r = 20 →
        h.lapsed = true ∨ h.elapsed < 100 * lateHold.configField ConfigRecord.leaseTerm) :=
  ⟨by decide +kernel, by decide +kernel, by decide +kernel, by decide +kernel, ⟨_, rfl, rfl⟩, by decide +kernel⟩

theorem test_witness_WatchThresholdsQueueVerdicts :
    (∀ s ∈ [overdue, memb], (∀ w ∈ s.tu.expiry, ∀ w' ∈ s.tu.expiry, w'.r = w.r → w'.holder = w.holder → w' = w)
      ∧ (∀ w ∈ s.tu.presence, ∀ w' ∈ s.tu.presence, w'.station = w.station → w' = w))
    ∧ (∃ w ∈ overdue.tu.expiry, w.queued = false
      ∧ 125 * overdue.configField ConfigRecord.leaseTerm + 2 * overdue.own.val ≤ w.elapsed)
    ∧ (∃ w ∈ overdue.tu.presence, w.queued = false ∧ 10 * overdue.configField ConfigRecord.missLimit
        * overdue.configField ConfigRecord.presencePeriod + 2 * overdue.own.val ≤ w.elapsed)
    ∧ (∃ w ∈ memb.tu.expiry, w.elapsed < 125 * memb.configField ConfigRecord.leaseTerm + 2 * memb.own.val)
    ∧ (∃ w ∈ memb.tu.presence, w.elapsed < 10 * memb.configField ConfigRecord.missLimit
        * memb.configField ConfigRecord.presencePeriod + 2 * memb.own.val)
    ∧ overdue.sc.station = .member ∧ overdue.tm.timebase ≠ .degraded
    ∧ (withStation overdue .synced).sc.station ≠ .member ∧ (withTm overdue .degraded 0 false).tm.timebase = .degraded
    ∧ (∃ w ∈ (after (.expiryWatchThreshold 44 3) overdue).tu.expiry, w.queued = true)
    ∧ (∃ w ∈ (after (.presenceWatchThreshold 3) overdue).tu.presence, w.queued = true) := by
  decide +kernel

theorem test_witness_DueThresholdsOfferFrames_presence :
    memb.tu.presenceTimer = some 0 ∧ 10 * memb.configField ConfigRecord.presencePeriod ≤ 200
    ∧ { memb with tu := { memb.tu with presenceTimer := some 200 } }.tu.presenceTimer = some 200
    ∧ 0 < 10 * memb.configField ConfigRecord.presencePeriod ∧ memb.sc.station = .member
    ∧ (withStation memb .synced).sc.station = .synced ∧ (withStation memb .snapshot).sc.station = .snapshot
    ∧ (joining 0).tu.presenceTimer = some 0 ∧ (joining 0).sc.station = .joinWait ∧ (joining 0).sc.joinAccepted = true := by
  decide +kernel

theorem test_witness_JoinWaitTimeoutFounds :
    (waited 3 800).sc.station = .joinWait ∧ (waited 3 800).sc.joinTimer = some 800
    ∧ 40 * (waited 3 800).configField ConfigRecord.presencePeriod ≤ 800 ∧ (waited 3 800).sc.memberHeard = false
    ∧ (waited 3 800).sc.lowerHeard = false := by decide +kernel

/-- `lastAwaited` with an EVICT of this station recorded. -/
def evictRecorded : State :=
  { lastAwaited with sc := { lastAwaited.sc with
      catchUp := [fromMember 15 4 (.evict 7 1)]
      staged := some {
        sender := 3, tsn := 41, entries := List.replicate 60 Entry.cleared, last := 15,
        roster := (joiningRecords.set 15 { state := .member, providingFor := none, inc := 4 }) } } }

/-- SYNCED, no longer listed. -/
def unlistedReady : State :=
  { sendsReady with replica := { sendsReady.replica with roster := group.roster.set 7 RosterEntry.cleared } }

theorem test_witness_FailedJoinAttempt :
    ({ waited 2 800 with sc := { (waited 2 800).sc with memberHeard := true } }.sc.memberHeard = true
      ∧ { waited 2 800 with sc := { (waited 2 800).sc with lowerHeard := true } }.sc.lowerHeard = true
      ∧ (waited 2 800).sc.station = .joinWait ∧ (waited 2 800).sc.joinTimer = some 800
      ∧ 40 * (waited 2 800).configField ConfigRecord.presencePeriod ≤ 800 ∧ (waited 2 800).sc.attemptNo + 1 < 4
      ∧ 4 ≤ (waited 3 800).sc.attemptNo + 1)
    ∧ ((∃ l, (sending (joining 0) .veto (.control .join) 7 (.join 0 0)).fails
        (ownAttempt (joining 0) (.control .join) 7 (.join 0 0)) .frameVetoed l) ∧ (joining 0).retryLimit ≤ 7 + 1)
    ∧ ((joining 3).hears (fromThree (.snapshot 7 3 41 (.roster noRecords))) ∧ noRecords[(7 : Station)].state ≠ .joining
      ∧ (joining 3).sc.joinAccepted = true ∧ (joining 3).own = 7)
    ∧ ((snapshotting 0).hears (fromThree (.snapshot 7 0 41 (.entries 1 #v[Entry.cleared, Entry.cleared, Entry.cleared,
        Entry.cleared]))) ∧ (snapshotting 0).sc.staged.map (fun x => (x.last, x.sender, x.tsn)) = some (0, 3, 41))
    ∧ ((snapshotting 3).sc.station = .snapshot
      ∧ { snapshotting 3 with sc := { (snapshotting 3).sc with stallTimer := some 800 } }.sc.stallTimer = some 800)
    ∧ ({ snapshotting 0 with sc := { (snapshotting 0).sc with
          catchUp := List.replicate 24 (fromThree (.renew 44)) } }.hears (fromThree .leave)
      ∧ (fromThree .leave).body.isState = true ∧ 24 ≤ (List.replicate 24 (fromThree (.renew 44))).length) :=
  ⟨by decide +kernel, ⟨⟨_, fails_vetoed _ _ _ _⟩, by decide +kernel⟩, by unfold State.hears; decide +kernel,
   by unfold State.hears; decide +kernel, by decide +kernel, by unfold State.hears; decide +kernel⟩

theorem test_witness_FailedJoinAttempt_live :
    (evictRecorded.hears lastSegment ∧ evictRecorded.sc.station = .snapshot
      ∧ evictRecorded.sc.staged.map (fun x => (x.last, x.entries.length, x.sender, x.tsn)) = some (15, 60, 3, 41)
      ∧ (∀ e ∈ (evictRecorded.sc.staged.map (fun x => x.entries)).getD []
            ++ [shared 9 [slot 3 9] [], Entry.cleared, Entry.cleared, Entry.cleared],
          e.holds evictRecorded.own = false ∧ e.waits evictRecorded.own = false)
      ∧ evictRecorded.sc.catchUp = [fromMember 15 4 (.evict 7 1)]
      ∧ evictRecorded.sc.staged.map (fun x => (x.roster[(7 : Station)], x.roster[(15 : Station)]))
        = some ({ state := .joining, providingFor := none, inc := 1 }, { state := .member, providingFor := none, inc := 4 })
      ∧ (after (.frameAccepted (.foreign lastSegment)) evictRecorded).sc.attemptNo = 1)
    ∧ (unlistedReady.sent (ownAttempt sendsReady (.control .ready) 0 .ready) ∧ unlistedReady.sc.station = .synced
      ∧ unlistedReady.replica.roster[unlistedReady.own].state ≠ .joining)
    ∧ ((∃ l, (sending { sendsReady with sc := { sendsReady.sc with readyRequeue := 3 } } .veto (.control .ready) 7 .ready).fails
        (ownAttempt { sendsReady with sc := { sendsReady.sc with readyRequeue := 3 } } (.control .ready) 7 .ready)
        .frameVetoed l) ∧ sendsReady.retryLimit ≤ 7 + 1) :=
  ⟨by unfold State.hears; decide +kernel, by unfold State.sent; decide +kernel,
   ⟨⟨_, fails_vetoed _ _ _ _⟩, by decide +kernel⟩⟩

theorem test_witness_ClaimDecidedByFirstLine :
    (exclusive 1 [slot 7 1] []).holds 7 = true
    ∧ ((exclusive 1 [slot 3 1] [waitShrd 7]).holds 7 = false ∧ (exclusive 1 [slot 3 1] [waitShrd 7]).waits 7 = true)
    ∧ Entry.cleared.mode = .free
    ∧ ((crowded 3 0).mode = .shared ∧ (crowded 3 0).waiters = [] ∧ (crowded 3 0).holders.length < 4
      ∧ (crowded 3 0).holds 7 = false)
    ∧ ((crowded 4 0).holders.length = 4 ∧ (crowded 4 5).waiters.length < 6 ∧ 6 ≤ (crowded 4 6).waiters.length
      ∧ (crowded 4 6).holds 7 = false ∧ (crowded 4 6).waits 7 = false) := by decide +kernel

theorem test_witness_PromotionSettlesEntry :
    (shared 118 [slot 5 118] [waitExcl 7, waitShrd 2]).consistent = true ∧ (exclusive 1 [slot 3 1] []).consistent = true
    ∧ Entry.cleared.consistent = true := by decide +kernel

theorem test_witness_AcceptedFrameKeepsTableLawful :
    (∀ x ∈ [StationState.member, .synced, .leaving .stopping .live], (withStation memb x).sc.station.live = true)
    ∧ memb.replica.tableOk ∧ memb.hears (fromThree (.release 44 (.host 1)))
    ∧ (releasing .veto 0).sent (releaseAttempt 0) := by
  unfold Replica.tableOk State.hears State.sent; decide +kernel

theorem test_witness_StepKeepsOutputs : memb.outputsOk ∧ State.reset.outputsOk := by
  unfold State.outputsOk; decide +kernel

theorem test_witness_StepKeepsQueueBounds :
    (withNu memb fullNotes).requestsOk ∧ (withNu memb fullNotes).notesOk ∧ (withNu memb fullNotes).catchUpOk := by
  unfold State.requestsOk State.notesOk State.catchUpOk; decide +kernel

end Sys2Proof.Tests
end

section
/-! R12: which line of its table decides a CLAIM, what each decision leaves of the entry, and the obligation
settled from the two. -/

namespace Sys2Proof

open Sys2Proof.Machine

/-- The third and fourth lines of R12: the entry has room for a newcomer that asks for the mode. -/
def Entry.GrantsNow (e : Entry) (m : LeaseMode) : Prop :=
  e.mode = .free ∨ (e.mode = .shared ∧ m = .shared ∧ e.waiters = [] ∧ e.holders.length < 4)

section Decision

variable {e : Entry} {v : Station} {m : LeaseMode} {w : Bool}

/-! ## The decision, line by line -/

theorem Entry.decideClaim_of_holds (hh : e.holds v = true) : e.decideClaim v m w = .refusedHeld := by
  simp [Entry.decideClaim, hh]

theorem Entry.decideClaim_of_waits (hh : e.holds v = false) (hw : e.waits v = true) :
    e.decideClaim v m w = .refusedWaiting := by
  simp [Entry.decideClaim, hh, hw]

/-- The two lines of R12 that grant give one outcome, so their order plays no part. -/
theorem Entry.decideClaim_of_grantsNow (hh : e.holds v = false) (hw : e.waits v = false) (hg : e.GrantsNow m) :
    e.decideClaim v m w = .granted := by
  rcases hg with hfree | hshared
  · simp [Entry.decideClaim, hh, hw, hfree]
  · simp [Entry.decideClaim, hh, hw, hshared, Config.holderLimit]

/-- For a newcomer that is not granted at once, the wait bit and the room in the queue alone decide. -/
theorem Entry.decideClaim_of_not_grantsNow (hh : e.holds v = false) (hw : e.waits v = false) (hg : ¬ e.GrantsNow m) :
    e.decideClaim v m w =
      if w = true ∧ e.waiters.length < 6 then .waiting else if w = true then .refusedFull else .refusedBusy := by
  obtain ⟨hfree, hshared⟩ := not_or.mp hg
  rw [Entry.decideClaim, if_neg (by simp [hh]), if_neg (by simp [hw]), if_neg hfree,
    if_neg (show ¬ (_ ∧ _ ∧ _ ∧ _ < Config.holderLimit) from hshared)]
  rfl

/-! ## What each decision leaves -/

theorem Entry.claim_of_granted (h : e.decideClaim v m w = .granted) : e.claim v m w = e.grant v m := by
  simp [Entry.claim, h]

theorem Entry.claim_of_waiting (h : e.decideClaim v m w = .waiting) :
    e.claim v m w = { e with waiters := e.waiters ++ [{ station := v, mode := m }] } := by
  simp [Entry.claim, h]

theorem Entry.claim_of_refused (hg : e.decideClaim v m w ≠ .granted) (hw : e.decideClaim v m w ≠ .waiting) :
    e.claim v m w = e := by
  unfold Entry.claim
  cases h : e.decideClaim v m w with
  | granted => exact absurd h hg
  | waiting => exact absurd h hw
  | refusedHeld | refusedWaiting | refusedBusy | refusedFull => rfl

/-- A CLAIM decided by a refusal `r` changes nothing: the two halves of each refusing line of R12. -/
theorem Entry.refused_and_claim_eq {r : ClaimResult} (h : e.decideClaim v m w = r)
    (hg : r ≠ .granted) (hw : r ≠ .waiting) : e.decideClaim v m w = r ∧ e.claim v m w = e :=
  ⟨h, Entry.claim_of_refused (h ▸ hg) (h ▸ hw)⟩

theorem Entry.grant_holders_perm (e : Entry) (v : Station) (m : LeaseMode) :
    (e.grant v m).holders.Perm ({ station := v, gen := e.gen + 1 } :: e.holders) :=
  insertSlot_perm _ _

theorem Entry.grant_mode (e : Entry) (v : Station) (m : LeaseMode) :
    (e.grant v m).mode = if e.mode = .free then m.toEntryMode else e.mode := rfl

/-- The position told is the length of the queue after the append (R12, R14). -/
theorem claimOutcome_of_waiting (h : e.decideClaim v m w = .waiting) :
    claimOutcome e v m w = .waiting (e.claim v m w).waiters.length := by
  simp [claimOutcome, h, Entry.claim_of_waiting h]

end Decision

/-- Settles O55: one line of R12 after the other, each by its decision and by what that decision leaves. -/
theorem claimDecidedByFirstLine : Obligations.ClaimDecidedByFirstLine := by
  intro e v m w
  refine ⟨fun hh => ?held, fun hh hw => ?waits, fun hh hw => ⟨fun hg => ?granted, fun hg => ?notGranted⟩⟩
  case held => exact Entry.refused_and_claim_eq (Entry.decideClaim_of_holds hh) nofun nofun
  case waits => exact Entry.refused_and_claim_eq (Entry.decideClaim_of_waits hh hw) nofun nofun
  case granted =>
    have hd : e.decideClaim v m w = .granted := Entry.decideClaim_of_grantsNow hh hw hg
    rw [Entry.claim_of_granted hd]
    exact ⟨hd, e.grant_gen v m, e.grant_waiters v m, e.grant_holders_perm v m, e.grant_mode v m⟩
  case notGranted =>
    have hd := Entry.decideClaim_of_not_grantsNow (w := w) hh hw hg
    refine ⟨fun hwait hroom => ?waiting, fun hnowait => ?busy, fun hwait hfull => ?full⟩
    case waiting =>
      rw [if_pos ⟨hwait, hroom⟩] at hd
      exact ⟨hd, Entry.claim_of_waiting hd, claimOutcome_of_waiting hd⟩
    case busy =>
      rw [if_neg (by simp [hnowait]), if_neg (by simp [hnowait])] at hd
      exact Entry.refused_and_claim_eq hd nofun nofun
    case full =>
      rw [if_neg (fun hroom => absurd hroom.2 (Nat.not_lt.mpr hfull)), if_pos hwait] at hd
      exact Entry.refused_and_claim_eq hd nofun nofun

end Sys2Proof
end

section
/-! R142: the KEEP command by its table, and R144: what a lapse of the keep permit leaves, for either cause, so that the
KEEP that lapses in EARLY is one use of it. -/

namespace Sys2Proof.Machine

/-! ## The rows of KEEP's table -/

theorem State.answer_response (s : State) (st : Status) (bytes : List Byte) :
    (s.answer st bytes).response = st.byte :: bytes := rfl

theorem State.answer_port (s : State) (st : Status) (bytes : List Byte) : (s.answer st bytes).port = .ready := rfl

theorem exec_keep (s : State) : exec .keep s = execKeep s := rfl

section Rows

variable {s : State} {c : ConfigRecord}

theorem State.configField_of_record (hc : s.config = some c) (read : ConfigRecord → Nat) :
    s.configField read = read c := by
  simp [State.configField, hc]

theorem exec_keep_of_noConfig (ho : s.portOpen = true) (hc : s.config = none) :
    exec .keep s = .next (s.answered [0x03]) := by
  rw [exec_keep, execKeep, takeCommand_open _ ho, if_pos hc]
  rfl

theorem exec_keep_of_noPeriod (ho : s.portOpen = true) (hc : s.config = some c) (hk : c.keepPeriod = 0) :
    exec .keep s = .next (s.answered [0x0C]) := by
  rw [exec_keep, execKeep, takeCommand_open _ ho, if_neg (by simp [hc]),
    if_pos ((State.configField_of_record hc _).trans hk)]
  rfl

theorem exec_keep_of_notMember (ho : s.portOpen = true) (hc : s.config = some c) (hk : c.keepPeriod ≠ 0)
    (hm : s.sc.station ≠ .member) : exec .keep s = .next (s.answered [0x01]) := by
  rw [exec_keep, execKeep, takeCommand_open _ ho, if_neg (by simp [hc]),
    if_neg (by rwa [State.configField_of_record hc]), if_pos hm]
  rfl

/-- What the permit state alone makes of a KEEP past the three refusals (R142). -/
def State.keepByPermit (s : State) : State :=
  match s.kp.permit with
  | .none => s.answer .refusedState []
  | .early => (s.permitLapse .early).settle.answer .permitLapsed []
  | .window => (s.setKp { permit := .early, timer := some 0 }).settle.answer .ok []
  | .lapsed _ => s.permitRestore.settle.answer .ok []

theorem exec_keep_of_member (ho : s.portOpen = true) (hc : s.config = some c) (hk : c.keepPeriod ≠ 0)
    (hm : s.sc.station = .member) : exec .keep s = .next s.keepByPermit := by
  rw [exec_keep, execKeep, takeCommand_open _ ho, if_neg (by simp [hc]),
    if_neg (by rwa [State.configField_of_record hc]), if_neg (by simp [hm])]
  rfl

theorem State.keepByPermit_of_early (hp : s.kp.permit = .early) :
    s.keepByPermit = (s.permitLapse .early).settle.answer .permitLapsed [] := by
  simp only [State.keepByPermit, hp]

theorem State.keepByPermit_of_window (hp : s.kp.permit = .window) :
    s.keepByPermit = (s.setKp { permit := .early, timer := some 0 }).settle.answer .ok [] := by
  simp only [State.keepByPermit, hp]

theorem State.keepByPermit_of_lapsed {cause : LapseCause} (hp : s.kp.permit = .lapsed cause) :
    s.keepByPermit = s.permitRestore.settle.answer .ok [] := by
  simp only [State.keepByPermit, hp]

end Rows

/-! ## The surrender set at a lapse -/

/-- A resource that a lapse makes this station give up: held, and no host RELEASE of it pending (R144). -/
def State.givesUp (s : State) (r : Resource) : Bool := s.holdsOwn r && !s.releasePending r

/-- One that it stops waiting on: waited on, and no host WITHDRAW of it pending (R144). -/
def State.stopsWaiting (s : State) (r : Resource) : Bool := s.waitsOwn r && !s.withdrawPending r

/-- One pass of R144 step 5 over every resource. -/
def State.surrenderPass (s : State) (mark : SurrenderMark) (p : State → Resource → Bool) : State :=
  allResources.foldl (fun s r => if p s r then s.surrenderAdd r mark else s) s

theorem State.surrenderAll_passes (s : State) :
    s.surrenderAll = (s.surrenderPass .hold State.givesUp).surrenderPass .wait State.stopsWaiting := rfl

/-- A pass changes the surrender set alone. -/
theorem State.surrenderPass_eq (s : State) (mark : SurrenderMark) (p : State → Resource → Bool) :
    ∃ members, s.surrenderPass mark p = s.setTu { s.tu with surrender := members } := by
  unfold State.surrenderPass
  induction allResources generalizing s with
  | nil => exact ⟨s.tu.surrender, rfl⟩
  | cons r rs ih =>
    rw [List.foldl_cons]
    by_cases hp : p s r = true
    · obtain ⟨members, h⟩ := ih (s.surrenderAdd r mark)
      exact ⟨members, by rw [if_pos hp, h, State.surrenderAdd_eq]; rfl⟩
    · rw [if_neg hp]
      exact ih s

theorem State.surrenderAll_eq (s : State) :
    ∃ members, s.surrenderAll = s.setTu { s.tu with surrender := members } := by
  obtain ⟨held, hheld⟩ := s.surrenderPass_eq .hold State.givesUp
  obtain ⟨all, hall⟩ := (s.setTu { s.tu with surrender := held }).surrenderPass_eq .wait State.stopsWaiting
  exact ⟨all, by rw [State.surrenderAll_passes, hheld, hall]; rfl⟩

theorem mem_allResources (r : Resource) : r ∈ allResources := List.mem_finRange r

/-- What is given up turns on the replica and the request queue, not on the set being filled. -/
theorem State.givesUp_surrenderAdd (s : State) (r r' : Resource) (m : SurrenderMark) :
    (s.surrenderAdd r m).givesUp r' = s.givesUp r' := by
  rw [State.surrenderAdd_eq]; rfl

theorem State.stopsWaiting_surrenderAdd (s : State) (r r' : Resource) (m : SurrenderMark) :
    (s.surrenderAdd r m).stopsWaiting r' = s.stopsWaiting r' := by
  rw [State.surrenderAdd_eq]; rfl

theorem State.stopsWaiting_surrenderPass (s : State) (m : SurrenderMark) (p : State → Resource → Bool) (r : Resource) :
    (s.surrenderPass m p).stopsWaiting r = s.stopsWaiting r := by
  obtain ⟨members, h⟩ := s.surrenderPass_eq m p
  rw [h]; rfl

/-- A resource in the set keeps its mark, and each of the rest that is chosen gets the pass's own (R122). -/
theorem State.surrenderPass_marks (s : State) (mark : SurrenderMark) (p : State → Resource → Bool)
    (hp : ∀ (s : State) r r', p (s.surrenderAdd r mark) r' = p s r') (r : Resource) :
    (s.surrenderPass mark p).surrenderMark r =
      if p s r = true ∧ s.surrendering r = false then some mark else s.surrenderMark r := by
  rw [State.surrenderPass, State.surrenderPass_mark mark p hp]
  simp [mem_allResources]

/-- R144 step 5: a member keeps its mark, and of the rest a resource held goes before one waited on. -/
theorem State.surrenderAll_mark (s : State) (r : Resource) :
    s.surrenderAll.surrenderMark r =
      if s.surrendering r then s.surrenderMark r
      else if s.givesUp r then some .hold
      else if s.stopsWaiting r then some .wait
      else none := by
  rw [State.surrenderAll_passes,
    State.surrenderPass_marks _ _ _ (fun s r r' => s.stopsWaiting_surrenderAdd r r' .wait),
    State.stopsWaiting_surrenderPass, State.surrendering_eq_mark,
    State.surrenderPass_marks _ _ _ (fun s r r' => s.givesUp_surrenderAdd r r' .hold), State.surrendering_eq_mark s r]
  cases hmark : s.surrenderMark r with
  | some m => simp
  | none => cases s.givesUp r <;> simp

/-! ## The lapse as one update -/

/-- The record of a lapse (R144, R180). -/
def lapseNote (cause : LapseCause) : Note :=
  .permit (match cause with | .early => .lapsedEarly | .late => .lapsedLate)

/-- R144 up to its step 4: the state and cause, then the QUEUED CLAIMs cancelled. -/
def State.lapseCancelled (s : State) (cause : LapseCause) : State :=
  (s.setKp { permit := .lapsed cause, timer := none }).cancelRequests Request.isQueuedClaim

theorem State.permitLapse_steps (s : State) (cause : LapseCause) :
    s.permitLapse cause = (s.lapseCancelled cause).surrenderAll.note (lapseNote cause) := rfl

theorem State.lapseCancelled_eq (s : State) (cause : LapseCause) :
    ∃ current, s.lapseCancelled cause = { s with
      kp := { permit := .lapsed cause, timer := none }
      requests := s.requests.filter (fun q => !q.isQueuedClaim)
      nu := s.nu.arriveAll ((s.requests.filter Request.isQueuedClaim).map (fun q => .done q.tag .cancelled q.r))
      lu := { s.lu with current := current } } :=
  (s.setKp { permit := .lapsed cause, timer := none }).cancelRequests_eq Request.isQueuedClaim

/-- The whole state after a lapse (R144), but for the attempt's withdrawn mark and the members of the surrender set. -/
theorem State.permitLapse_eq (s : State) (cause : LapseCause) :
    ∃ current members, s.permitLapse cause = { s with
      kp := { permit := .lapsed cause, timer := none }
      requests := s.requests.filter (fun q => !q.isQueuedClaim)
      nu := s.nu.arriveAll
        ((s.requests.filter Request.isQueuedClaim).map (fun q => .done q.tag .cancelled q.r) ++ [lapseNote cause])
      lu := { s.lu with current := current }
      tu := { s.tu with surrender := members } } := by
  obtain ⟨current, hcancel⟩ := s.lapseCancelled_eq cause
  obtain ⟨members, hall⟩ := (s.lapseCancelled cause).surrenderAll_eq
  refine ⟨current, members, ?_⟩
  rw [State.permitLapse_steps, hall, hcancel, NoteUnit.arriveAll_append]
  rfl

/-- Step 4 cancels CLAIMs alone, so whether a request of another kind is pending does not change. -/
theorem pending_of_not_queuedClaim (qs : List Request) (r : Resource) (k : RequestKind)
    (hk : ∀ q : Request, q.kind = k → q.isQueuedClaim = false) :
    (qs.filter (fun q => !q.isQueuedClaim)).any (fun q => q.r == r && q.kind == k)
      = qs.any (fun q => q.r == r && q.kind == k) := by
  rw [List.any_filter]
  congr 1
  funext q
  by_cases hq : q.kind = k
  · simp [hk q hq]
  · simp [hq]

theorem State.givesUp_lapseCancelled (s : State) (cause : LapseCause) (r : Resource) :
    (s.lapseCancelled cause).givesUp r = s.givesUp r := by
  have hpending : (s.lapseCancelled cause).releasePending r = s.releasePending r := by
    obtain ⟨current, hcancel⟩ := s.lapseCancelled_eq cause
    rw [hcancel]
    exact pending_of_not_queuedClaim s.requests r .release (fun q hq => by simp [Request.isQueuedClaim, hq])
  have hholds : (s.lapseCancelled cause).holdsOwn r = s.holdsOwn r := by
    obtain ⟨current, hcancel⟩ := s.lapseCancelled_eq cause
    rw [hcancel]; rfl
  rw [State.givesUp, hpending, hholds, State.givesUp]

theorem State.stopsWaiting_lapseCancelled (s : State) (cause : LapseCause) (r : Resource) :
    (s.lapseCancelled cause).stopsWaiting r = s.stopsWaiting r := by
  have hpending : (s.lapseCancelled cause).withdrawPending r = s.withdrawPending r := by
    obtain ⟨current, hcancel⟩ := s.lapseCancelled_eq cause
    rw [hcancel]
    exact pending_of_not_queuedClaim s.requests r .withdraw (fun q hq => by simp [Request.isQueuedClaim, hq])
  have hwaits : (s.lapseCancelled cause).waitsOwn r = s.waitsOwn r := by
    obtain ⟨current, hcancel⟩ := s.lapseCancelled_eq cause
    rw [hcancel]; rfl
  rw [State.stopsWaiting, hpending, hwaits, State.stopsWaiting]

theorem State.lapseCancelled_surrender (s : State) (cause : LapseCause) :
    (s.lapseCancelled cause).tu.surrender = s.tu.surrender := by
  obtain ⟨current, hcancel⟩ := s.lapseCancelled_eq cause
  rw [hcancel]

theorem State.note_surrenderMark (s : State) (x : Note) (r : Resource) :
    (s.note x).surrenderMark r = s.surrenderMark r := rfl

theorem State.permitLapse_surrenderMark (s : State) (cause : LapseCause) (r : Resource) :
    (s.permitLapse cause).surrenderMark r =
      if s.surrendering r then s.surrenderMark r
      else if s.givesUp r then some .hold
      else if s.stopsWaiting r then some .wait
      else none := by
  have hset : (s.lapseCancelled cause).surrendering r = s.surrendering r := by
    simp only [State.surrendering, State.lapseCancelled_surrender]
  have hmark : (s.lapseCancelled cause).surrenderMark r = s.surrenderMark r := by
    simp only [State.surrenderMark, State.lapseCancelled_surrender]
  rw [State.permitLapse_steps, State.note_surrenderMark, State.surrenderAll_mark, hset, hmark, State.givesUp_lapseCancelled, State.stopsWaiting_lapseCancelled]

/-! ## What follows at once while LAPSED -/

theorem State.renewAllowed_of_lapsed {t : State} (hp : t.kp.permit.isLapsed = true) (h : OwnHold) :
    t.renewAllowed h = false := by
  simp [State.renewAllowed, hp]

theorem State.withRenewal_not_offered {t : State} (hp : t.kp.permit.isLapsed = true) (h : OwnHold) :
    (t.withRenewal h).offered = false := by
  have hnot := mt (t.withRenewal_spec h).1 (by simp [State.renewAllowed_of_lapsed hp])
  simpa using hnot

theorem State.lineCondition_of_lapsed {t : State} (hp : t.kp.permit.isLapsed = true) (x : Fin 8) :
    t.lineCondition x = false := by
  unfold State.lineCondition
  cases t.gou.maps[x] <;> simp [State.driveCondition, hp]

/-- Each level is its line's condition (R148). -/
theorem State.lineLevels_getElem (t : State) (x : Fin 8) : t.lineLevels[x] = t.lineCondition x := by
  match x with
  | 0 | 1 | 2 | 3 | 4 | 5 | 6 | 7 => rfl

theorem State.lineLevels_of_lapsed {t : State} (hp : t.kp.permit.isLapsed = true) (x : Fin 8) :
    t.lineLevels[x] = false := by
  rw [State.lineLevels_getElem, State.lineCondition_of_lapsed hp]

theorem SettlesTo.surrenderMark {e t : State} (h : SettlesTo e t) (r : Resource) :
    t.surrenderMark r = e.surrenderMark r := by
  unfold State.surrenderMark
  rw [h.tu_surrender]

/-- But for IRQ# the notification unit stands as it was. -/
theorem SettlesTo.nu_but_irq {e t : State} (h : SettlesTo e t) : { t.nu with irq := e.nu.irq } = e.nu := by
  rw [h.frame]

/-- R144 whole: the lapse of either cause, with what follows from it at once. -/
theorem PermitLapses.of_settlesTo {s t : State} {cause : LapseCause} (h : SettlesTo (s.permitLapse cause) t) :
    PermitLapses s t cause := by
  obtain ⟨current, members, hlapse⟩ := s.permitLapse_eq cause
  have hkp : t.kp = { permit := .lapsed cause, timer := none } := h.kp.trans (by rw [hlapse])
  have hlapsed : t.kp.permit.isLapsed = true := by rw [hkp]; rfl
  have hholds : t.tu.holds = s.tu.holds.map t.withRenewal := h.holds.trans (by rw [hlapse])
  have hirq : (s.permitLapse cause).nu.irq = s.nu.irq := by rw [hlapse, NoteUnit.arriveAll_irq]
  exact {
    permit := hkp
    requests := h.requests.trans (by rw [hlapse])
    notes := by
      rw [← hirq, h.nu_but_irq, hlapse]
      cases cause <;> rfl
    lines := ⟨fun x => by rw [h.lines, State.lineLevels_of_lapsed hlapsed], h.gou_maps.trans (by rw [hlapse])⟩
    renewals := by
      refine ⟨fun x hx => ?_, hholds⟩
      rw [hholds] at hx
      obtain ⟨y, -, rfl⟩ := List.mem_map.mp hx
      exact State.withRenewal_not_offered hlapsed y
    surrender := fun r => by
      simpa [State.givesUp, State.stopsWaiting] using (h.surrenderMark r).trans (s.permitLapse_surrenderMark cause r)
    frame := by
      have hframe := h.frame
      rw [hlapse] at hframe
      rw [hframe] }

/-- A lapse does not turn on the response. -/
theorem PermitLapses.withAnswer {s t : State} {cause : LapseCause} (h : PermitLapses s t cause) (bytes : List Byte) :
    PermitLapses s (t.answered bytes) cause where
  permit := h.permit
  requests := h.requests
  notes := by cases cause <;> exact h.notes
  lines := h.lines
  renewals := h.renewals
  surrender := h.surrender
  frame := by
    have hframe := h.frame
    unfold State.answered
    rw [hframe]

/-- Settles O20: row after row of R142's table; in EARLY the lapse is that of R144. -/
theorem keepByPermitState : Obligations.KeepByPermitState := by
  intro s hopen
  refine ⟨exec_keep_of_noConfig hopen, fun c hc => ⟨exec_keep_of_noPeriod hopen hc, exec_keep_of_notMember hopen hc,
    fun hk hm hearly => ?early, fun hk hm hwindow => ?window, fun hk hm ⟨_, hlapsed⟩ => ?lapsed⟩⟩
  all_goals refine ⟨s.keepByPermit, exec_keep_of_member hopen hc hk hm, ?_⟩
  case early =>
    rw [State.keepByPermit_of_early hearly]
    refine ⟨State.answer_response _ _ _, State.answer_port _ _ _, ?_⟩
    rw [State.answer_eq]
    exact (PermitLapses.of_settlesTo (s.permitLapse .early).settle_settlesTo).withAnswer _
  case window =>
    rw [State.keepByPermit_of_window hwindow]
    exact (s.setKp { permit := .early, timer := some 0 }).settle_answer .ok []
  case lapsed =>
    rw [State.keepByPermit_of_lapsed hlapsed]
    exact s.permitRestore.settle_answer .ok []

end Sys2Proof.Machine
end

section
/-! R158 and R176: READ_STATUS and QUERY_REQUEST answer with bytes read from the state and change nothing but the
response. What the two need besides their own steps is the byte of the eight grant lines, bit by bit, and the one
record that a tag picks out of a queue of distinct tags. -/

namespace Sys2Proof.Machine

/-! ## The byte of the grant lines -/

theorem byteOf_of_toNat_eq {b : Byte} {n : Nat} (h : b.toNat = n) : byteOf n = b := by
  rw [byteOf, ← h, BitVec.ofNat_toNat, BitVec.setWidth_eq]

/-- The sum of the chosen powers of two is the byte of those bits, the lowest line first. -/
theorem lineBits_eq_ofBoolListLE (chosen : Fin 8 → Bool) : lineBits chosen = BitVec.ofBoolListLE
    [chosen 0, chosen 1, chosen 2, chosen 3, chosen 4, chosen 5, chosen 6, chosen 7] := by
  have digit : ∀ x : Fin 8, (if chosen x then 2 ^ x.val else 0) = (chosen x).toNat * 2 ^ x.val := by
    intro x
    cases chosen x with
    | false => exact (Nat.zero_mul _).symm
    | true => exact (Nat.one_mul _).symm
  refine byteOf_of_toNat_eq ?_
  simp only [digit, BitVec.ofBoolListLE, BitVec.toNat_concat]
  show ((((((((0 * 2 + (chosen 7).toNat) * 2 + (chosen 6).toNat) * 2 + (chosen 5).toNat) * 2 + (chosen 4).toNat) * 2
      + (chosen 3).toNat) * 2 + (chosen 2).toNat) * 2 + (chosen 1).toNat) * 2 + (chosen 0).toNat)
    = 0 + (chosen 0).toNat * 1 + (chosen 1).toNat * 2 + (chosen 2).toNat * 4 + (chosen 3).toNat * 8
      + (chosen 4).toNat * 16 + (chosen 5).toNat * 32 + (chosen 6).toNat * 64 + (chosen 7).toNat * 128
  omega

/-- Bit `x` of the byte tells of line `x` (R158, R174). -/
theorem lineBits_getLsbD (chosen : Fin 8 → Bool) (x : Fin 8) : (lineBits chosen).getLsbD x.val = chosen x := by
  rw [lineBits_eq_ofBoolListLE]
  match x with
  | 0 | 1 | 2 | 3 | 4 | 5 | 6 | 7 => exact BitVec.getLsbD_ofBoolListLE

/-! ## READ_STATUS -/

theorem exec_readStatus (s : State) : exec .readStatus s = execReadStatus s := rfl

theorem exec_readStatus_of_open {s : State} (ho : s.portOpen = true) :
    exec .readStatus s = .next (s.answered (0x00 :: s.statusBytes)) := by
  rw [exec_readStatus, execReadStatus, takeCommand_open _ ho]
  rfl

/-- Settles O10: the byte of the lines is `lineBits` of their levels, and the others are those of `State.statusBytes`. -/
theorem readStatusReports : Obligations.ReadStatusReports := by
  intro s hopen
  refine ⟨lineBits (fun x => s.gou.active[x]), lineBits_getLsbD _, ?_⟩
  have hconfig : (if s.config.isSome then (0x01 : Byte) else 0x00) = if s.config = none then 0x00 else 0x01 := by
    cases s.config with
    | none => rfl
    | some c => rfl
  rw [exec_readStatus_of_open hopen, State.statusBytes, hconfig]
  rfl

/-! ## The record that a tag picks out -/

/-- With distinct tags (R164), the first record that holds a tag is the one that holds it. -/
theorem find?_tag_of_mem {requests : List Request} {q : Request} {n : Nat} (hq : q ∈ requests) (htag : n = q.tag.val)
    (hdistinct : (requests.map Request.tag).Nodup) : requests.find? (fun x => x.tag.val == n) = some q := by
  induction requests with
  | nil => exact absurd hq List.not_mem_nil
  | cons x xs ih =>
    rw [List.map_cons, List.nodup_cons] at hdistinct
    obtain ⟨hfresh, hrest⟩ := hdistinct
    rcases List.mem_cons.mp hq with rfl | hlater
    · exact List.find?_cons_of_pos (beq_iff_eq.mpr htag.symm)
    · have hother : x.tag.val ≠ n := fun hx =>
        hfresh (Fin.ext (hx.trans htag) ▸ List.mem_map_of_mem hlater)
      exact (List.find?_cons_of_neg (p := fun y : Request => y.tag.val == n) (mt beq_iff_eq.mp hother)).trans
        (ih hlater hrest)

theorem find?_tag_eq_none {requests : List Request} {n : Nat} (h : ∀ q ∈ requests, n ≠ q.tag.val) :
    requests.find? (fun x => x.tag.val == n) = none :=
  List.find?_eq_none.mpr fun q hq => mt beq_iff_eq.mp (h q hq).symm

/-- A record of any kind answers with as many bytes, so the length byte is fixed (R176, R203). -/
theorem Request.bytes_length (q : Request) : q.bytes.length = 7 := by
  unfold Request.bytes
  cases q.kind <;> rfl

/-! ## QUERY_REQUEST -/

theorem exec_queryRequest (b : Byte) (s : State) : exec (.queryRequest b) s = execQueryRequest b s := rfl

section Query

variable {s : State} {b : Byte}

theorem exec_queryRequest_of_record {q : Request} (ho : s.portOpen = true) (htag : b.toNat = q.tag.val)
    (hfind : s.requests.find? (fun x => x.tag.val == b.toNat) = some q) :
    exec (.queryRequest b) s = .next (s.answered (0x00 :: 0x07 :: q.bytes)) := by
  have hrange : b.toNat < 16 := htag ▸ q.tag.isLt
  rw [exec_queryRequest, execQueryRequest, takeCommand_open _ ho, if_pos hrange, hfind]
  simp only [State.answerQuery, State.answer_eq, q.bytes_length]
  rfl

theorem exec_queryRequest_of_noRecord (ho : s.portOpen = true) (hrange : b.toNat < 16)
    (hfind : s.requests.find? (fun x => x.tag.val == b.toNat) = none) :
    exec (.queryRequest b) s = .next (s.answered [0x0D, 0x00]) := by
  rw [exec_queryRequest, execQueryRequest, takeCommand_open _ ho, if_pos hrange, hfind]
  rfl

theorem exec_queryRequest_of_outOfRange (ho : s.portOpen = true) (hrange : 16 ≤ b.toNat) :
    exec (.queryRequest b) s = .next (s.answered [0x02, 0x00]) := by
  rw [exec_queryRequest, execQueryRequest, takeCommand_open _ ho, if_neg (Nat.not_lt.mpr hrange)]
  rfl

end Query

/-- Settles O13: a tag in range picks out its one record or none, and the record's bytes are read off its kind. -/
theorem queryRequestGivesRecord : Obligations.QueryRequestGivesRecord := by
  intro s b hopen
  refine ⟨fun q hq htag hdistinct => ?record, fun hrange hnone => ?empty,
    exec_queryRequest_of_outOfRange hopen⟩
  case empty => exact exec_queryRequest_of_noRecord hopen hrange (find?_tag_eq_none hnone)
  case record =>
    rw [exec_queryRequest_of_record hopen htag (find?_tag_of_mem hq htag hdistinct), ← byteOf_of_toNat_eq htag]
    obtain ⟨tag, kind, r, state, count⟩ := q
    cases kind with
    | claim mode wait => cases mode <;> cases wait <;> rfl
    | release => rfl
    | withdraw => rfl

end Sys2Proof.Machine
end

section
/-! R183: NOTE_COUNT answers with the two counts of the Notification Unit, and READ_STATUS carries the first of them. -/

namespace Sys2Proof.Machine

theorem exec_noteCount (s : State) : exec .noteCount s = execNoteCount s := rfl

theorem exec_noteCount_of_open {s : State} (ho : s.portOpen = true) :
    exec .noteCount s = .next (s.answered [0x00, byteOf s.nu.queue.length, byteOf s.nu.dropped]) := by
  rw [exec_noteCount, execNoteCount, takeCommand_open _ ho, State.answer_eq]
  rfl

/-- READ_STATUS byte 9 is the count of records in the queue (R158, R203). -/
theorem State.statusBytes_recordCount (s : State) : s.statusBytes[9]? = some (byteOf s.nu.queue.length) := rfl

/-- Settles O11: NOTE_COUNT answers with the counts themselves, and in READ_STATUS the count of records stands after the
status byte and nine others. -/
theorem noteCountReadsOnly : Obligations.NoteCountReadsOnly := by
  intro s hopen
  refine ⟨exec_noteCount_of_open hopen, 0x00 :: s.statusBytes, exec_readStatus_of_open hopen, ?_⟩
  rw [List.getElem?_cons_succ]
  exact s.statusBytes_recordCount

end Sys2Proof.Machine
end

section
/-! R148, R149, R186, R187: every command ends with the grant lines and IRQ# recomputed, or changes nothing that these
read; so a step keeps them. Each command's meaning is first read off as the state it answers. -/

namespace Sys2Proof.Machine

/-! ## What the outputs read -/

/-- The configuration record is no part of what the block operations change. -/
theorem Closed.config (c : Option ConfigRecord) : Closed (fun t => t.config = c) where
  lu := fun _ _ h => h
  tu := fun _ _ h => h
  replica := fun _ _ h => h
  kp := fun _ _ h => h
  free := fun _ _ h => h
  note := fun _ _ h => h
  filter := fun _ _ h => h
  requests := fun _ _ _ h => h
  sc := fun _ _ _ h => h
  active := fun _ _ h => h
  irq := fun _ _ h => h

theorem State.threshold_congr {s t : State} (h : t.config = s.config) : t.threshold = s.threshold := by
  unfold State.threshold
  rw [h]

/-- Two states that agree in everything the outputs read. -/
theorem State.outputsOk_congr {s t : State} (hs : s.outputsOk) (hactive : t.gou.active = s.gou.active)
    (hlines : t.lineLevels = s.lineLevels) (hirq : t.nu.irq = s.nu.irq) (hcond : t.irqCondition = s.irqCondition)
    (hconfig : t.config = s.config) : t.outputsOk := by
  obtain ⟨hl, hi, ht⟩ := hs
  exact ⟨by rw [hactive, hl, hlines], by rw [hirq, hi, hcond], by rw [State.threshold_congr hconfig]; exact ht⟩

theorem State.settle_outputsOk {s : State} (h : 1 ≤ s.threshold) : s.settle.outputsOk :=
  ⟨s.settle_settlesTo.lines, s.settle_settlesTo.irq, by rw [State.threshold_congr s.settle_settlesTo.config]; exact h⟩

/-- A change that leaves the record, settled, has its outputs right. -/
theorem State.outputsOk.settle {s x : State} (hs : s.outputsOk) (hx : x.config = s.config) : x.settle.outputsOk :=
  State.settle_outputsOk (by rw [State.threshold_congr hx]; exact hs.2.2)

theorem State.outputsOk.answer {s : State} (h : s.outputsOk) (st : Status) (bytes : List Byte) :
    (s.answer st bytes).outputsOk := h

/-! ## Host commands -/

theorem takeCommand_outputsOk {s t : State} {f : State → State} (hs : s.outputsOk) (hf : (f s).outputsOk)
    (ht : takeCommand s f = .next t) : t.outputsOk := by
  injection ht with ht
  subst ht
  split
  · exact hf
  · exact hs

/-- The threshold of a record that the range checks pass is at least 1 (R161). -/
theorem configRecordOf_irqThreshold {bytes : List Byte} {c : ConfigRecord} (h : configRecordOf bytes = some c) :
    1 ≤ c.irqThreshold := by
  unfold configRecordOf at h
  split at h
  · split at h
    · rename_i hn _ _
      injection h with h
      subst h
      simp only [rangeOf] at hn
      split at hn
      · rename_i hr
        injection hn with hn
        simp only
        omega
      · exact nomatch hn
    · exact nomatch h
  · exact nomatch h

theorem writeConfig_outputsOk {s : State} (hs : s.outputsOk) (bytes : List Byte) (t : State)
    (ht : execWriteConfig bytes s = .next t) : t.outputsOk := by
  refine takeCommand_outputsOk hs ?_ ht
  split
  · rename_i c hc
    split
    · refine State.outputsOk.answer (State.settle_outputsOk ?_) _ _
      exact configRecordOf_irqThreshold hc
    · exact hs
  · exact hs

theorem start_outputsOk {s : State} (hs : s.outputsOk) (t : State) (ht : execStart s = .next t) : t.outputsOk := by
  refine takeCommand_outputsOk hs ?_ ht
  repeat' split
  all_goals first | exact hs | exact (hs.settle ((Closed.config _).joinStart s rfl)).answer _ _

theorem State.stop_config (s t : State) (h : s.stop = some t) : t.config = s.config := by
  have C := Closed.config s.config
  have off : s.stopOffline.config = s.config := C.note _ _ (C.lineOff _
    (C.scEmpty _ _ rfl (C.stopPresence _ (C.withdrawMembership s rfl))))
  have leaving : ∀ x n, ((s.enterLeaving .stopping x).note n).config = s.config :=
    fun x n => C.note _ _ (C.enterLeaving s .stopping x rfl)
  unfold State.stop at h
  split at h
  case h_1 | h_7 => exact nomatch h
  case h_2 =>
    split at h <;> injection h with h <;> subst h
    · exact leaving _ _
    · exact off
  case h_3 | h_4 | h_5 => injection h with h; subst h; exact leaving _ _
  case h_6 => injection h with h; subst h; rfl
  case h_8 => injection h with h; subst h; exact off

theorem stop_outputsOk {s : State} (hs : s.outputsOk) (t : State) (ht : execStop s = .next t) : t.outputsOk := by
  refine takeCommand_outputsOk hs ?_ ht
  split
  · rename_i x hx
    exact (hs.settle (s.stop_config x hx)).answer _ _
  · exact hs

theorem State.acceptRequest_outputsOk {s : State} (hs : s.outputsOk) (kind : RequestKind) (r : Resource) :
    (s.acceptRequest kind r).outputsOk := by
  refine State.outputsOk.answer (hs.settle ?_) _ _
  rfl

theorem claim_outputsOk {s : State} (hs : s.outputsOk) (a b c : Byte) (t : State) (ht : execClaim a b c s = .next t) :
    t.outputsOk := by
  refine takeCommand_outputsOk hs ?_ ht
  repeat' split
  all_goals first | exact hs | exact State.acceptRequest_outputsOk hs _ _

theorem release_outputsOk {s : State} (hs : s.outputsOk) (a : Byte) (t : State) (ht : execRelease a s = .next t) :
    t.outputsOk := by
  refine takeCommand_outputsOk hs ?_ ht
  repeat' split
  all_goals first | exact hs | exact State.acceptRequest_outputsOk hs _ _

theorem withdraw_outputsOk {s : State} (hs : s.outputsOk) (a : Byte) (t : State) (ht : execWithdraw a s = .next t) :
    t.outputsOk := by
  refine takeCommand_outputsOk hs ?_ ht
  repeat' split
  all_goals first | exact hs | exact State.acceptRequest_outputsOk hs _ _

theorem keep_outputsOk {s : State} (hs : s.outputsOk) (t : State) (ht : execKeep s = .next t) : t.outputsOk := by
  refine takeCommand_outputsOk hs ?_ ht
  split
  · exact hs
  split
  · exact hs
  split
  · exact hs
  split
  · exact hs
  · exact (hs.settle ((Closed.config s.config).permitLapse s .early rfl)).answer _ _
  all_goals
    refine (hs.settle ?_).answer _ _
    rfl

theorem restoreTimebase_outputsOk {s : State} (hs : s.outputsOk) (t : State) (ht : execRestoreTimebase s = .next t) :
    t.outputsOk := by
  refine takeCommand_outputsOk hs ?_ ht
  split
  · exact hs
  · exact hs
  · split
    · refine (hs.settle ?_).answer _ _
      exact (Closed.config s.config).offerOverdue ((s.setTm _).note _) rfl
    · exact hs

theorem readNote_outputsOk {s : State} (hs : s.outputsOk) (t : State) (ht : execReadNote s = .next t) :
    t.outputsOk := by
  have hplaced : s.placeOverflow.outputsOk := by
    unfold State.placeOverflow
    split
    · exact hs.settle rfl
    · exact hs
  refine takeCommand_outputsOk hs ?_ ht
  dsimp only
  split <;> exact hplaced

theorem noteRecordRemoved_outputsOk {s : State} (hs : s.outputsOk) (t : State) (ht : execNoteRecordRemoved s = .next t) :
    t.outputsOk := by
  injection ht with ht
  subst ht
  split
  · exact State.outputsOk.settle (x := s.setNu _) hs rfl
  · exact hs

/-! ## Resets and supply -/

theorem lineLevels_offline {s : State} (h : s.sc.station ≠ .member) : s.lineLevels = Vector.replicate 8 false := by
  have hx : ∀ x, s.lineCondition x = false := by
    intro x
    unfold State.lineCondition
    cases s.gou.maps[x] <;> simp [State.driveCondition, h]
  unfold State.lineLevels
  simp only [hx]
  rfl

/-- After a reset nothing drives an output, whatever becomes of the record (R148, R186, R187). -/
theorem State.resetBlocks_outputsOk {s : State} (hs : s.outputsOk) (keep : Bool) : (s.resetBlocks keep).outputsOk := by
  have hthreshold : 1 ≤ (s.resetBlocks keep).threshold := by
    cases keep
    · exact Nat.le_refl 1
    · exact hs.2.2
  refine ⟨?_, ?_, hthreshold⟩
  · rw [lineLevels_offline (by simp [State.resetBlocks, StationCtl.afterReset])]
    cases keep <;> rfl
  · have hzero : ¬ (s.resetBlocks keep).threshold ≤ 0 := by omega
    simp [State.irqCondition, State.resetBlocks, NoteUnit.afterReset, StationCtl.afterReset, StationState.isFaulted] at hzero ⊢
    omega

theorem State.outputsOk.setPower {s : State} (h : s.outputsOk) (x : Power) : (s.setPower x).outputsOk := h

theorem State.outputsOk.setCause {s : State} (h : s.outputsOk) (x : ResetCause) : (s.setCause x).outputsOk := h

theorem State.powerOn_outputsOk {s : State} (hs : s.outputsOk) : s.powerOn.outputsOk :=
  (State.resetBlocks_outputsOk hs false).setPower _

/-! ## Events that settle -/

theorem State.windowEnd_config (s : State) (edges : Nat) (receiving : Bool) :
    (s.windowEnd edges receiving).config = s.config := by
  unfold State.windowEnd
  dsimp only
  repeat' split
  all_goals first
    | rfl
    | exact (Closed.config s.config).lapseOverdue _ ((Closed.config s.config).withdrawVerdicts _
        ((Closed.config s.config).cutOff _ rfl))

/-- What an answer that settles, or changes nothing, leaves right. -/
theorem outputsOk_of_next {x t : State} (ht : (Host.Outcome.next x : Answer) = .next t) (hx : x.outputsOk) :
    t.outputsOk := by
  injection ht with ht
  exact ht ▸ hx

theorem outputsOk_ite {p : Prop} [Decidable p] {x y : State} (hx : x.outputsOk) (hy : y.outputsOk) :
    (if p then x else y).outputsOk := by
  split
  · exact hx
  · exact hy

theorem lineEvent_outputsOk {s t : State} (hs : s.outputsOk) :
    (∀ readings, execReceptionVeto readings s = .next t → t.outputsOk)
    ∧ (execAttemptStart s = .next t → t.outputsOk) ∧ (execCollision s = .next t → t.outputsOk)
    ∧ (execJamEnd s = .next t → t.outputsOk) ∧ (execFrameVetoed s = .next t → t.outputsOk) := by
  have C := Closed.config s.config
  refine ⟨fun readings ht => outputsOk_of_next ht (outputsOk_ite (hs.settle ?_) hs),
    fun ht => outputsOk_of_next ht (outputsOk_ite (hs.settle (C.startAttempt s rfl)) hs),
    fun ht => outputsOk_of_next ht ?_, fun ht => outputsOk_of_next ht ?_, fun ht => outputsOk_of_next ht ?_⟩
  · split
    · exact C.jam s readings rfl
    · exact C.reception s readings rfl
  · split
    · exact outputsOk_ite (hs.settle (C.jam s _ rfl)) hs
    · exact hs
  · dsimp only
    split
    · exact hs.settle (C.lu s _ rfl)
    · exact hs.settle (C.lu s _ rfl)
    · exact hs
    · exact hs
    all_goals exact hs.settle (C.lu s _ rfl)
  · split
    · exact hs.settle (C.attemptFailed _ _ (C.lu s _ rfl))
    · exact hs.settle (C.attemptFailed _ _ (C.lu s _ rfl))
    · exact hs
    all_goals exact hs.settle (C.lu s _ rfl)

theorem frameAccepted_outputsOk {s t : State} (hs : s.outputsOk) (f : LineFrame) (ht : execFrameAccepted f s = .next t) :
    t.outputsOk := by
  have C := Closed.config s.config
  refine outputsOk_of_next ht ?_
  split
  · exact outputsOk_ite (hs.settle (C.acceptOwn s _ rfl)) hs
  · exact hs
  · exact outputsOk_ite (hs.settle (C.acceptForeign s _ rfl)) hs

theorem supply_outputsOk {s t : State} (hs : s.outputsOk) (x : SupplyCrossing)
    (ht : execSupplyDriveThreshold x s = .next t) : t.outputsOk := by
  refine outputsOk_of_next ht ?_
  cases x
  · exact hs.setPower _
  · exact (State.powerOn_outputsOk hs).setPower _
  · exact hs.setPower _

theorem resetEvent_outputsOk {s t : State} (hs : s.outputsOk) :
    (execCommandReset s = .next t → t.outputsOk) ∧ (execCommandResetEnd s = .next t → t.outputsOk)
    ∧ (execPowerOnResetEnd s = .next t → t.outputsOk) ∧ (execPinReset s = .next t → t.outputsOk)
    ∧ (execPinResetEnd s = .next t → t.outputsOk) := by
  refine ⟨fun ht => outputsOk_of_next ht (outputsOk_ite ((State.resetBlocks_outputsOk hs true).setPower _) hs),
    fun ht => outputsOk_of_next ht (outputsOk_ite ((hs.setPower _).setCause _) hs),
    fun ht => outputsOk_of_next ht ?_, fun ht => outputsOk_of_next ht ?_, fun ht => outputsOk_of_next ht ?_⟩
  · split
    · exact outputsOk_ite ((hs.setPower _).setCause _) hs
    all_goals exact hs
  · split
    · exact hs.setPower _
    all_goals exact (State.resetBlocks_outputsOk hs false).setPower _
  · split
    · exact (hs.setPower _).setCause _
    · exact hs.setPower _
    all_goals exact hs

/-! ## Timer thresholds -/

/-- The keep window opening changes no LAPSED state, and so no line (R141, R148). -/
theorem keepWindowOpen_outputsOk {s t : State} (hs : s.outputsOk) (ht : execKeepWindowOpen s = .next t) :
    t.outputsOk := by
  refine outputsOk_of_next ht ?_
  split
  · rename_i h
    refine State.outputsOk_congr hs rfl ?_ rfl rfl rfl
    have hc : ∀ x, (s.setKp { s.kp with permit := .window }).lineCondition x = s.lineCondition x := by
      intro x
      have hd : ∀ m, (s.setKp { s.kp with permit := .window }).driveCondition m = s.driveCondition m := by
        intro m
        unfold State.driveCondition
        rw [h.1]
        rfl
      unfold State.lineCondition
      simp only [State.setKp_gou, hd]
    simp only [State.lineLevels, hc]
  · exact hs

theorem idleTimerReached_outputsOk {s t : State} (hs : s.outputsOk) (ht : execIdleTimerReached s = .next t) :
    t.outputsOk := by
  refine outputsOk_of_next ht ?_
  split
  · exact outputsOk_ite ⟨hs.1, rfl, hs.2.2⟩ hs
  · exact hs

theorem timerEvent_outputsOk {s t : State} (hs : s.outputsOk) :
    (∀ r, execRenewalDue r s = .next t → t.outputsOk) ∧ (∀ r, execSelfLapse r s = .next t → t.outputsOk)
    ∧ (∀ r v, execExpiryWatchThreshold r v s = .next t → t.outputsOk) ∧ (execPresenceDue s = .next t → t.outputsOk)
    ∧ (∀ v, execPresenceWatchThreshold v s = .next t → t.outputsOk) ∧ (execJoinWaitTimeout s = .next t → t.outputsOk)
    ∧ (execSegmentStallTimeout s = .next t → t.outputsOk) ∧ (execKeepPeriodEnd s = .next t → t.outputsOk) := by
  have C := Closed.config s.config
  refine ⟨fun r ht => outputsOk_of_next ht (outputsOk_ite (hs.settle rfl) hs),
    fun r ht => outputsOk_of_next ht (outputsOk_ite (hs.settle (C.lapseHold s r rfl)) hs),
    fun r v ht => outputsOk_of_next ht ?_,
    fun ht => outputsOk_of_next ht (outputsOk_ite (hs.settle (C.tu s _ rfl)) hs),
    fun v ht => outputsOk_of_next ht ?_,
    fun ht => outputsOk_of_next ht (outputsOk_ite (hs.settle ?_) hs),
    fun ht => outputsOk_of_next ht (outputsOk_ite (hs.settle (C.failedAttempt s false rfl)) hs),
    fun ht => outputsOk_of_next ht (outputsOk_ite (hs.settle (C.permitLapse s .late rfl)) hs)⟩
  · split
    · exact outputsOk_ite (hs.settle (C.offerExpire s _ rfl)) hs
    · exact hs
  · split
    · exact outputsOk_ite (hs.settle (C.offerEvict s _ rfl)) hs
    · exact hs
  · split
    · exact C.failedAttempt s false rfl
    · exact C.found s rfl

/-! ## A step -/

/-- Time passing makes no timer reached and no hold lapsed: that is left to the rows it queues (log 2, log 4). -/
theorem State.tick_outputsOk {s : State} (hs : s.outputsOk) : s.tick.outputsOk := by
  have hlapsed : ∀ r, s.tick.lapsedMark r = s.lapsedMark r := by
    intro r
    show (s.tu.holds.map _).any _ = _
    rw [List.any_map]
    congr 1
    funext h
    simp only [Function.comp_apply]
    split <;> rfl
  have hc : ∀ x, s.tick.lineCondition x = s.lineCondition x := by
    intro x
    have hd : ∀ m, s.tick.driveCondition m = s.driveCondition m := by
      intro m
      unfold State.driveCondition
      rw [hlapsed]
      rfl
    show (match s.gou.maps[x] with | some m => s.tick.driveCondition m | none => false) = _
    simp only [hd]
    rfl
  refine State.outputsOk_congr hs rfl (by simp only [State.lineLevels, hc]) rfl ?_ rfl
  have hidle : (s.tick.nu.idle == .reached) = (s.nu.idle == .reached) := by
    show (s.nu.idle.advance == .reached) = _
    cases s.nu.idle <;> rfl
  unfold State.irqCondition
  rw [hidle]
  rfl

theorem exec_outputsOk (c : Instr) {s t : State} (hs : s.outputsOk) (ht : exec c s = .next t) : t.outputsOk := by
  cases c with
  | readStatus | readCause | clearCause | noteCount | reset | unknownCommand _ | transactionAborted =>
    simp only [exec] at ht
    exact takeCommand_outputsOk hs hs ht
  | readConfig | queryEntry _ | queryRoster _ =>
    simp only [exec] at ht
    refine takeCommand_outputsOk hs ?_ ht
    split <;> exact hs
  | queryRequest _ =>
    simp only [exec] at ht
    refine takeCommand_outputsOk hs ?_ ht
    refine outputsOk_ite ?_ hs
    split <;> exact hs
  | writeConfig record => exact writeConfig_outputsOk hs record t ht
  | start => exact start_outputsOk hs t ht
  | stop => exact stop_outputsOk hs t ht
  | claim resource mode wait => exact claim_outputsOk hs resource mode wait t ht
  | release resource => exact release_outputsOk hs resource t ht
  | withdraw resource => exact withdraw_outputsOk hs resource t ht
  | keep => exact keep_outputsOk hs t ht
  | readNote => exact readNote_outputsOk hs t ht
  | noteRecordRemoved => exact noteRecordRemoved_outputsOk hs t ht
  | restoreTimebase => exact restoreTimebase_outputsOk hs t ht
  | commandReset => exact (resetEvent_outputsOk hs).1 ht
  | commandResetEnd => exact (resetEvent_outputsOk hs).2.1 ht
  | powerOnReset => exact outputsOk_of_next ht (State.powerOn_outputsOk hs)
  | powerOnResetEnd => exact (resetEvent_outputsOk hs).2.2.1 ht
  | pinReset => exact (resetEvent_outputsOk hs).2.2.2.1 ht
  | pinResetEnd => exact (resetEvent_outputsOk hs).2.2.2.2 ht
  | measurementWindowEnd edges receiving =>
    exact outputsOk_of_next ht (outputsOk_ite (hs.settle (s.windowEnd_config edges receiving)) hs)
  | lineUnitTakesRefclk => exact outputsOk_of_next ht (outputsOk_ite hs hs)
  | integrationWaitEnd => exact outputsOk_of_next ht (outputsOk_ite (hs.settle rfl) hs)
  | backoffEnd => exact outputsOk_of_next ht (outputsOk_ite (hs.settle rfl) hs)
  | receptionVeto readings => exact (lineEvent_outputsOk hs).1 readings ht
  | attemptStart => exact (lineEvent_outputsOk hs).2.1 ht
  | collision => exact (lineEvent_outputsOk hs).2.2.1 ht
  | jamEnd => exact (lineEvent_outputsOk hs).2.2.2.1 ht
  | frameVetoed => exact (lineEvent_outputsOk hs).2.2.2.2 ht
  | frameAccepted f => exact frameAccepted_outputsOk hs f ht
  | renewalDue r => exact (timerEvent_outputsOk hs).1 r ht
  | selfLapse r => exact (timerEvent_outputsOk hs).2.1 r ht
  | expiryWatchThreshold r v => exact (timerEvent_outputsOk hs).2.2.1 r v ht
  | presenceDue => exact (timerEvent_outputsOk hs).2.2.2.1 ht
  | presenceWatchThreshold v => exact (timerEvent_outputsOk hs).2.2.2.2.1 v ht
  | joinWaitTimeout => exact (timerEvent_outputsOk hs).2.2.2.2.2.1 ht
  | segmentStallTimeout => exact (timerEvent_outputsOk hs).2.2.2.2.2.2.1 ht
  | keepPeriodEnd => exact (timerEvent_outputsOk hs).2.2.2.2.2.2.2 ht
  | keepWindowOpen => exact keepWindowOpen_outputsOk hs ht
  | idleTimerReached => exact idleTimerReached_outputsOk hs ht
  | supplyDriveThreshold x => exact supply_outputsOk hs x ht
  | csHighSeen => exact outputsOk_of_next ht (outputsOk_ite hs hs)

/-- Settles O58: taking a command off the queue reads no output, and both time and every command keep them. -/
theorem stepKeepsOutputs : Obligations.StepKeepsOutputs := by
  intro s t hs ht
  unfold step at ht
  split at ht
  · rename_i c rest _
    exact exec_outputsOk c (s := s.setPending rest) hs ht
  · exact outputsOk_of_next ht (State.tick_outputsOk hs)

end Sys2Proof.Machine
end

section
/-! R164, R178, R65: the bounds of the three queues. Every block operation keeps them, so each command does but for the few
that touch a queue beyond these operations, and those are looked at one by one. -/

namespace Sys2Proof.Machine

/-! ## The bounds as one closed property -/

/-- The three queues are within their bounds, tags and resources distinct (R65, R164, R178). -/
def State.queuesOk (s : State) : Prop := s.requestsOk ∧ s.notesOk ∧ s.catchUpOk

theorem requestsOk_filter {s : State} (h : s.requestsOk) (p : Request → Bool) :
    (s.setRequests (s.requests.filter p)).requestsOk := by
  obtain ⟨hlen, htags, hres⟩ := h
  exact ⟨Nat.le_trans (List.length_filter_le p s.requests) hlen, htags.sublist (List.filter_sublist.map _),
    hres.sublist (List.filter_sublist.map _)⟩

/-- What changes neither tags nor resources keeps them distinct. -/
theorem requestsOk_map {s : State} (h : s.requestsOk) (f : Request → Request)
    (hf : ∀ q, (f q).tag = q.tag ∧ (f q).r = q.r) : (s.setRequests (s.requests.map f)).requestsOk := by
  obtain ⟨hlen, htags, hres⟩ := h
  refine ⟨by simpa using hlen, ?_, ?_⟩
  · simpa [Function.comp_def, (hf _).1] using htags
  · simpa [Function.comp_def, (hf _).2] using hres

theorem Closed.queues : Closed State.queuesOk where
  lu := fun _ _ h => h
  tu := fun _ _ h => h
  replica := fun _ _ h => h
  kp := fun _ _ h => h
  free := fun _ _ h => h
  note := fun s x ⟨hq, hn, hc⟩ => ⟨hq, s.nu.arrive_bounds x hn, hc⟩
  filter := fun _ p ⟨hq, hn, hc⟩ => ⟨requestsOk_filter hq p, hn, hc⟩
  requests := fun _ f hf ⟨hq, hn, hc⟩ => ⟨requestsOk_map hq f hf, hn, hc⟩
  sc := fun s x hx ⟨hq, hn, hc⟩ => by
    refine ⟨hq, hn, ?_⟩
    show x.catchUp.length ≤ 24
    rcases hx with h | h | ⟨f, hl, h⟩ <;> rw [h]
    · exact hc
    · exact Nat.zero_le _
    · rw [List.length_append]; exact hl
  active := fun _ _ h => h
  irq := fun _ _ h => h

theorem State.queuesOk.answer {s : State} (h : s.queuesOk) (st : Status) (bytes : List Byte) :
    (s.answer st bytes).queuesOk := h

theorem queuesOk_ite {p : Prop} [Decidable p] {x y : State} (hx : x.queuesOk) (hy : y.queuesOk) :
    (if p then x else y).queuesOk := by
  split
  · exact hx
  · exact hy

theorem queuesOk_of_next {x t : State} (ht : (Host.Outcome.next x : Answer) = .next t) (hx : x.queuesOk) :
    t.queuesOk := by
  injection ht with ht
  exact ht ▸ hx

theorem takeCommand_queuesOk {s t : State} {f : State → State} (hs : s.queuesOk) (hf : (f s).queuesOk)
    (ht : takeCommand s f = .next t) : t.queuesOk :=
  queuesOk_of_next ht (queuesOk_ite hf hs)

/-! ## A request accepted -/

/-- Fewer than 16 records leave a tag free. -/
theorem exists_free_tag {s : State} (h : s.requests.length < 16) : ∃ t : Fin 16, ∀ q ∈ s.requests, q.tag ≠ t := by
  refine Classical.byContradiction fun hall => ?_
  have hsub : List.finRange 16 ⊆ s.requests.map Request.tag := fun t _ =>
    Classical.byContradiction fun ht =>
      hall ⟨t, fun q hq hqt => ht (List.mem_map.mpr ⟨q, hq, hqt⟩)⟩
  have hlen := (List.nodup_finRange 16).length_le_of_subset hsub
  rw [List.length_finRange, List.length_map] at hlen
  omega

/-- The tag given is free, and no lower one is (R164). -/
theorem State.freeTag_lowest {s : State} (h : s.requests.length < 16) :
    (∀ q ∈ s.requests, q.tag ≠ s.freeTag) ∧ ∀ u < s.freeTag, ∃ q ∈ s.requests, q.tag = u := by
  obtain ⟨t, ht⟩ := exists_free_tag h
  have hsome : ((List.finRange 16).find? (fun t => !s.requests.any (fun q => q.tag == t))).isSome := by
    rw [List.find?_isSome]
    exact ⟨t, List.mem_finRange t, by simpa using ht⟩
  obtain ⟨x, hx⟩ := Option.isSome_iff_exists.mp hsome
  have hfree : s.freeTag = x := by
    unfold State.freeTag
    rw [hx]
    rfl
  obtain ⟨hp, i, hi, hget, hbefore⟩ := List.find?_eq_some_iff_getElem.mp hx
  rw [hfree]
  refine ⟨by simpa using hp, fun u hu => ?_⟩
  have hix : x.val = i := by
    have := congrArg Fin.val hget
    simpa using this.symm
  have hb := hbefore u.val (by rw [← hix]; exact hu)
  simpa using hb

/-- The checks that the three requests share (R165 to R167), read off. -/
theorem State.requestRefusal_none {s : State} {r : Resource} (h : s.requestRefusal r = none) :
    s.sc.station = .member ∧ s.requests.length < 16 ∧ (∀ q ∈ s.requests, q.r ≠ r) ∧ s.surrendering r = false := by
  unfold State.requestRefusal at h
  split at h
  · exact nomatch h
  · rename_i hm
    split at h
    · exact nomatch h
    · rename_i hl
      split at h
      · exact nomatch h
      · rename_i hb
        simp only [State.requestFor, not_or, Bool.not_eq_true, Option.isSome_eq_false_iff, Option.isNone_iff_eq_none,
          List.find?_eq_none, beq_iff_eq] at hb
        exact ⟨Classical.not_not.mp hm, Nat.lt_of_not_le hl, hb⟩

theorem State.acceptRequest_queuesOk {s : State} (hs : s.queuesOk) (kind : RequestKind) {r : Resource}
    (h : s.requestRefusal r = none) : (s.acceptRequest kind r).queuesOk := by
  obtain ⟨⟨hlen, htags, hres⟩, hn, hc⟩ := hs
  obtain ⟨-, hroom, hbusy, -⟩ := State.requestRefusal_none h
  refine State.queuesOk.answer (Closed.queues.settle _ ?_) _ _
  refine ⟨⟨?_, ?_, ?_⟩, hn, hc⟩
  · simp only [State.setRequests_requests, List.length_append, List.length_singleton]
    omega
  · rw [State.setRequests_requests, List.map_append, List.map_singleton]
    refine List.nodup_append.mpr ⟨htags, List.pairwise_singleton _ _, ?_⟩
    intro a ha b hb
    obtain ⟨q, hq, rfl⟩ := List.mem_map.mp ha
    rw [List.mem_singleton.mp hb]
    exact (State.freeTag_lowest hroom).1 q hq
  · rw [State.setRequests_requests, List.map_append, List.map_singleton]
    refine List.nodup_append.mpr ⟨hres, List.pairwise_singleton _ _, ?_⟩
    intro a ha b hb
    obtain ⟨q, hq, rfl⟩ := List.mem_map.mp ha
    rw [List.mem_singleton.mp hb]
    exact hbusy q hq

/-! ## Commands -/

theorem request_queuesOk {s t : State} (hs : s.queuesOk) :
    (∀ a b c, execClaim a b c s = .next t → t.queuesOk) ∧ (∀ a, execRelease a s = .next t → t.queuesOk)
    ∧ (∀ a, execWithdraw a s = .next t → t.queuesOk) := by
  refine ⟨fun a b c ht => takeCommand_queuesOk hs ?_ ht, fun a ht => takeCommand_queuesOk hs ?_ ht,
    fun a ht => takeCommand_queuesOk hs ?_ ht⟩
  · split
    · split
      · exact hs
      · rename_i h
        exact queuesOk_ite hs (queuesOk_ite hs (queuesOk_ite hs (State.acceptRequest_queuesOk hs _ h)))
    · exact hs
  all_goals
    split
    · split
      · exact hs
      · rename_i h
        exact queuesOk_ite (State.acceptRequest_queuesOk hs _ h) hs
    · exact hs

theorem State.stop_queuesOk {s t : State} (hs : s.queuesOk) (h : s.stop = some t) : t.queuesOk := by
  have C := Closed.queues
  have off : s.stopOffline.queuesOk := C.note _ _ (C.lineOff _
    (C.scEmpty _ _ rfl (C.stopPresence _ (C.withdrawMembership s hs))))
  have leaving : ∀ x n, ((s.enterLeaving .stopping x).note n).queuesOk :=
    fun x n => C.note _ _ (C.enterLeaving s .stopping x hs)
  unfold State.stop at h
  split at h
  case h_1 | h_7 => exact nomatch h
  case h_2 =>
    split at h <;> injection h with h <;> subst h
    · exact leaving _ _
    · exact off
  case h_3 | h_4 | h_5 => injection h with h; subst h; exact leaving _ _
  case h_6 => injection h with h; subst h; exact C.note _ _ (C.scSame _ _ rfl hs)
  case h_8 => injection h with h; subst h; exact off

theorem State.placeOverflow_queuesOk {s : State} (hs : s.queuesOk) : s.placeOverflow.queuesOk := by
  unfold State.placeOverflow
  split
  · obtain ⟨hq, hn, hc⟩ := hs
    exact Closed.queues.settle _ ⟨hq, ⟨(s.nu.arrive_bounds _ hn).1, Nat.zero_le _⟩, hc⟩
  · exact hs

theorem noteRecordRemoved_queuesOk {s t : State} (hs : s.queuesOk) (ht : execNoteRecordRemoved s = .next t) :
    t.queuesOk := by
  refine queuesOk_of_next ht ?_
  split
  · rename_i x rest _ _ hqueue
    obtain ⟨hq, ⟨hlen, hdropped⟩, hc⟩ := hs
    rw [hqueue] at hlen
    exact Closed.queues.settle _ ⟨hq, ⟨Nat.le_trans (Nat.le_succ _) hlen, hdropped⟩, hc⟩
  · exact hs

/-- After a reset the queues are empty. -/
theorem State.resetBlocks_queuesOk (s : State) (keep : Bool) : (s.resetBlocks keep).queuesOk :=
  ⟨⟨Nat.zero_le _, List.nodup_nil, List.nodup_nil⟩, ⟨Nat.zero_le _, Nat.zero_le _⟩, Nat.zero_le _⟩

theorem hostCommand_queuesOk {s t : State} (hs : s.queuesOk) :
    (∀ record, execWriteConfig record s = .next t → t.queuesOk) ∧ (execStart s = .next t → t.queuesOk)
    ∧ (execStop s = .next t → t.queuesOk) ∧ (execKeep s = .next t → t.queuesOk)
    ∧ (execRestoreTimebase s = .next t → t.queuesOk) ∧ (execReadNote s = .next t → t.queuesOk) := by
  have C := Closed.queues
  refine ⟨fun record ht => takeCommand_queuesOk hs ?_ ht, fun ht => takeCommand_queuesOk hs ?_ ht,
    fun ht => takeCommand_queuesOk hs ?_ ht, fun ht => takeCommand_queuesOk hs ?_ ht,
    fun ht => takeCommand_queuesOk hs ?_ ht, fun ht => takeCommand_queuesOk hs ?_ ht⟩
  · split
    · refine queuesOk_ite (State.queuesOk.answer (C.settle _ ?_) _ _) hs
      exact hs
    · exact hs
  · exact queuesOk_ite hs (queuesOk_ite hs (queuesOk_ite hs (State.queuesOk.answer (C.settle _ (C.joinStart s hs)) _ _)))
  · split
    · rename_i x hx
      exact State.queuesOk.answer (C.settle _ (State.stop_queuesOk hs hx)) _ _
    · exact hs
  · refine queuesOk_ite hs (queuesOk_ite hs (queuesOk_ite hs ?_))
    split
    · exact hs
    · exact State.queuesOk.answer (C.settle _ (C.permitLapse s .early hs)) _ _
    · exact State.queuesOk.answer (C.settle _ (C.kp s _ hs)) _ _
    · exact State.queuesOk.answer (C.settle _ (C.permitRestore s hs)) _ _
  · split
    · exact hs
    · exact hs
    · refine queuesOk_ite (State.queuesOk.answer (C.settle _ ?_) _ _) hs
      exact C.offerOverdue _ (C.note (s.setTm _) _ hs)
  · dsimp only
    split <;> exact State.placeOverflow_queuesOk hs

/-! ## Events -/

theorem State.windowEnd_queuesOk {s : State} (hs : s.queuesOk) (edges : Nat) (receiving : Bool) :
    (s.windowEnd edges receiving).queuesOk := by
  have C := Closed.queues
  have tm : ∀ x, (s.setTm x).queuesOk := fun _ => hs
  unfold State.windowEnd
  dsimp only
  split
  · refine queuesOk_ite (queuesOk_ite ?_ (tm _)) (tm _)
    exact C.note _ _ (C.lu _ _ (tm _))
  · refine queuesOk_ite hs ?_
    exact C.lapseOverdue _ (C.withdrawVerdicts _ (C.cutOff _ (C.note _ _
      (show ((s.receptionBegun receiving).setTm _).queuesOk from hs))))
  · refine queuesOk_ite (queuesOk_ite hs (queuesOk_ite (C.note _ _ (tm _)) (tm _))) (queuesOk_ite (C.note _ _ (tm _)) (tm _))

theorem lineEvent_queuesOk {s t : State} (hs : s.queuesOk) :
    (∀ readings, execReceptionVeto readings s = .next t → t.queuesOk)
    ∧ (execAttemptStart s = .next t → t.queuesOk) ∧ (execCollision s = .next t → t.queuesOk)
    ∧ (execJamEnd s = .next t → t.queuesOk) ∧ (execFrameVetoed s = .next t → t.queuesOk)
    ∧ (∀ f, execFrameAccepted f s = .next t → t.queuesOk) := by
  have C := Closed.queues
  refine ⟨fun readings ht => queuesOk_of_next ht (queuesOk_ite (C.settle _ (queuesOk_ite (C.jam s readings hs)
      (C.reception s readings hs))) hs),
    fun ht => queuesOk_of_next ht (queuesOk_ite (C.settle _ (C.startAttempt s hs)) hs),
    fun ht => queuesOk_of_next ht ?_, fun ht => queuesOk_of_next ht ?_, fun ht => queuesOk_of_next ht ?_,
    fun f ht => queuesOk_of_next ht ?_⟩
  · split
    · exact queuesOk_ite (C.settle _ (C.jam s _ hs)) hs
    · exact hs
  · dsimp only
    split
    · exact C.settle _ (C.lu s _ hs)
    · exact C.settle _ (C.lu s _ hs)
    · exact hs
    · exact hs
    all_goals exact C.settle _ (C.lu s _ hs)
  · split
    · exact C.settle _ (C.attemptFailed _ _ (C.lu s _ hs))
    · exact C.settle _ (C.attemptFailed _ _ (C.lu s _ hs))
    · exact hs
    all_goals exact C.settle _ (C.lu s _ hs)
  · split
    · exact queuesOk_ite (C.settle _ (C.acceptOwn s _ hs)) hs
    · exact hs
    · exact queuesOk_ite (C.settle _ (C.acceptForeign s _ hs)) hs

theorem resetEvent_queuesOk {s t : State} (hs : s.queuesOk) :
    (execPowerOnResetEnd s = .next t → t.queuesOk) ∧ (execPinReset s = .next t → t.queuesOk)
    ∧ (execPinResetEnd s = .next t → t.queuesOk) ∧ (∀ x, execSupplyDriveThreshold x s = .next t → t.queuesOk) := by
  refine ⟨fun ht => queuesOk_of_next ht ?_, fun ht => queuesOk_of_next ht ?_, fun ht => queuesOk_of_next ht ?_,
    fun x ht => queuesOk_of_next ht ?_⟩
  · split
    · exact queuesOk_ite hs hs
    all_goals exact hs
  · split
    · exact hs
    all_goals exact s.resetBlocks_queuesOk false
  · split <;> exact hs
  · cases x
    · exact hs
    · exact s.resetBlocks_queuesOk false
    · exact hs

theorem timerEvent_queuesOk {s t : State} (hs : s.queuesOk) :
    (∀ r v, execExpiryWatchThreshold r v s = .next t → t.queuesOk)
    ∧ (∀ v, execPresenceWatchThreshold v s = .next t → t.queuesOk) ∧ (execJoinWaitTimeout s = .next t → t.queuesOk)
    ∧ (execIdleTimerReached s = .next t → t.queuesOk) := by
  have C := Closed.queues
  refine ⟨fun r v ht => queuesOk_of_next ht ?_, fun v ht => queuesOk_of_next ht ?_,
    fun ht => queuesOk_of_next ht (queuesOk_ite (C.settle _ (queuesOk_ite (C.failedAttempt s false hs) (C.found s hs))) hs),
    fun ht => queuesOk_of_next ht ?_⟩
  · split
    · exact queuesOk_ite (C.settle _ (C.offerExpire s _ hs)) hs
    · exact hs
  · split
    · exact queuesOk_ite (C.settle _ (C.offerEvict s _ hs)) hs
    · exact hs
  · split
    · refine queuesOk_ite ?_ hs
      exact hs
    · exact hs

theorem exec_queuesOk (c : Instr) {s t : State} (hs : s.queuesOk) (ht : exec c s = .next t) : t.queuesOk := by
  have C := Closed.queues
  cases c with
  | readStatus | readCause | clearCause | noteCount | reset | unknownCommand _ | transactionAborted =>
    simp only [exec] at ht
    exact takeCommand_queuesOk hs hs ht
  | readConfig | queryEntry _ | queryRoster _ =>
    simp only [exec] at ht
    refine takeCommand_queuesOk hs ?_ ht
    split <;> exact hs
  | queryRequest _ =>
    simp only [exec] at ht
    refine takeCommand_queuesOk hs ?_ ht
    refine queuesOk_ite ?_ hs
    split <;> exact hs
  | writeConfig record => exact (hostCommand_queuesOk hs).1 record ht
  | start => exact (hostCommand_queuesOk hs).2.1 ht
  | stop => exact (hostCommand_queuesOk hs).2.2.1 ht
  | keep => exact (hostCommand_queuesOk hs).2.2.2.1 ht
  | restoreTimebase => exact (hostCommand_queuesOk hs).2.2.2.2.1 ht
  | readNote => exact (hostCommand_queuesOk hs).2.2.2.2.2 ht
  | claim resource mode wait => exact (request_queuesOk hs).1 resource mode wait ht
  | release resource => exact (request_queuesOk hs).2.1 resource ht
  | withdraw resource => exact (request_queuesOk hs).2.2 resource ht
  | noteRecordRemoved => exact noteRecordRemoved_queuesOk hs ht
  | commandReset => exact queuesOk_of_next ht (queuesOk_ite (s.resetBlocks_queuesOk true) hs)
  | commandResetEnd => exact queuesOk_of_next ht (queuesOk_ite hs hs)
  | powerOnReset => exact queuesOk_of_next ht (s.resetBlocks_queuesOk false)
  | powerOnResetEnd => exact (resetEvent_queuesOk hs).1 ht
  | pinReset => exact (resetEvent_queuesOk hs).2.1 ht
  | pinResetEnd => exact (resetEvent_queuesOk hs).2.2.1 ht
  | supplyDriveThreshold x => exact (resetEvent_queuesOk hs).2.2.2 x ht
  | measurementWindowEnd edges receiving =>
    exact queuesOk_of_next ht (queuesOk_ite (C.settle _ (State.windowEnd_queuesOk hs edges receiving)) hs)
  | lineUnitTakesRefclk => exact queuesOk_of_next ht (queuesOk_ite (C.lu s _ hs) hs)
  | integrationWaitEnd | backoffEnd => exact queuesOk_of_next ht (queuesOk_ite (C.settle _ (C.lu s _ hs)) hs)
  | receptionVeto readings => exact (lineEvent_queuesOk hs).1 readings ht
  | attemptStart => exact (lineEvent_queuesOk hs).2.1 ht
  | collision => exact (lineEvent_queuesOk hs).2.2.1 ht
  | jamEnd => exact (lineEvent_queuesOk hs).2.2.2.1 ht
  | frameVetoed => exact (lineEvent_queuesOk hs).2.2.2.2.1 ht
  | frameAccepted f => exact (lineEvent_queuesOk hs).2.2.2.2.2 f ht
  | renewalDue r => exact queuesOk_of_next ht (queuesOk_ite (C.settle s hs) hs)
  | selfLapse r => exact queuesOk_of_next ht (queuesOk_ite (C.settle _ (C.lapseHold s r hs)) hs)
  | presenceDue => exact queuesOk_of_next ht (queuesOk_ite (C.settle _ (C.tu s _ hs)) hs)
  | segmentStallTimeout => exact queuesOk_of_next ht (queuesOk_ite (C.settle _ (C.failedAttempt s false hs)) hs)
  | keepPeriodEnd => exact queuesOk_of_next ht (queuesOk_ite (C.settle _ (C.permitLapse s .late hs)) hs)
  | keepWindowOpen => exact queuesOk_of_next ht (queuesOk_ite (C.kp s _ hs) hs)
  | expiryWatchThreshold r v => exact (timerEvent_queuesOk hs).1 r v ht
  | presenceWatchThreshold v => exact (timerEvent_queuesOk hs).2.1 v ht
  | joinWaitTimeout => exact (timerEvent_queuesOk hs).2.2.1 ht
  | idleTimerReached => exact (timerEvent_queuesOk hs).2.2.2 ht
  | csHighSeen => exact queuesOk_of_next ht (queuesOk_ite hs hs)

/-- Settles O59: neither taking a command off the queue nor time passing touches the three queues. -/
theorem stepKeepsQueueBounds : Obligations.StepKeepsQueueBounds := by
  intro s t hq hn hc ht
  have hs : s.queuesOk := ⟨hq, hn, hc⟩
  unfold step at ht
  split at ht
  · rename_i c rest _
    exact exec_queuesOk c (s := s.setPending rest) hs ht
  · exact queuesOk_of_next ht hs

end Sys2Proof.Machine
end

section
/-! The machine as a whole and its resets: the step, time passing (R130), the closed port (R154), the three resets and the
supply (R159, R160, R196, R197), and the state after reset. -/

namespace Sys2Proof.Machine

/-- Settles O1: that is how a step is defined. -/
theorem stepTakesFrontCommand : Obligations.StepTakesFrontCommand := fun _ _ _ => rfl

/-- Settles O3: each arm of the dispatch answers a next state. -/
theorem everyCommandCompletes : Obligations.EveryCommandCompletes := by
  intro c s
  cases c <;> exact ⟨_, rfl⟩

/-! ## The arms of the dispatch -/

theorem exec_readCause (s : State) : exec .readCause s = execReadCause s := rfl

theorem exec_clearCause (s : State) : exec .clearCause s = execClearCause s := rfl

theorem exec_writeConfig (record : List Byte) (s : State) : exec (.writeConfig record) s = execWriteConfig record s := rfl

theorem exec_readConfig (s : State) : exec .readConfig s = execReadConfig s := rfl

theorem exec_start (s : State) : exec .start s = execStart s := rfl

theorem exec_stop (s : State) : exec .stop s = execStop s := rfl

theorem exec_claim (resource mode wait : Byte) (s : State) : exec (.claim resource mode wait) s = execClaim resource mode wait s := rfl

theorem exec_release (resource : Byte) (s : State) : exec (.release resource) s = execRelease resource s := rfl

theorem exec_withdraw (resource : Byte) (s : State) : exec (.withdraw resource) s = execWithdraw resource s := rfl

theorem exec_readNote (s : State) : exec .readNote s = execReadNote s := rfl

theorem exec_noteRecordRemoved (s : State) : exec .noteRecordRemoved s = execNoteRecordRemoved s := rfl

theorem exec_queryEntry (resource : Byte) (s : State) : exec (.queryEntry resource) s = execQueryEntry resource s := rfl

theorem exec_queryRoster (station : Byte) (s : State) : exec (.queryRoster station) s = execQueryRoster station s := rfl

theorem exec_restoreTimebase (s : State) : exec .restoreTimebase s = execRestoreTimebase s := rfl

theorem exec_reset (s : State) : exec .reset s = execReset s := rfl

theorem exec_unknownCommand (code : Byte) (s : State) : exec (.unknownCommand code) s = execUnknownCommand code s := rfl

theorem exec_transactionAborted (s : State) : exec .transactionAborted s = execTransactionAborted s := rfl

theorem exec_commandReset (s : State) : exec .commandReset s = execCommandReset s := rfl

theorem exec_commandResetEnd (s : State) : exec .commandResetEnd s = execCommandResetEnd s := rfl

theorem exec_powerOnResetEnd (s : State) : exec .powerOnResetEnd s = execPowerOnResetEnd s := rfl

theorem exec_pinReset (s : State) : exec .pinReset s = execPinReset s := rfl

theorem exec_pinResetEnd (s : State) : exec .pinResetEnd s = execPinResetEnd s := rfl

theorem exec_measurementWindowEnd (edges : Nat) (receiving : Bool) (s : State) : exec (.measurementWindowEnd edges receiving) s = execMeasurementWindowEnd edges receiving s := rfl

theorem exec_lineUnitTakesRefclk (s : State) : exec .lineUnitTakesRefclk s = execLineUnitTakesRefclk s := rfl

theorem exec_integrationWaitEnd (s : State) : exec .integrationWaitEnd s = execIntegrationWaitEnd s := rfl

theorem exec_attemptStart (s : State) : exec .attemptStart s = execAttemptStart s := rfl

theorem exec_collision (s : State) : exec .collision s = execCollision s := rfl

theorem exec_jamEnd (s : State) : exec .jamEnd s = execJamEnd s := rfl

theorem exec_backoffEnd (s : State) : exec .backoffEnd s = execBackoffEnd s := rfl

theorem exec_receptionVeto (readings : List BitReading) (s : State) : exec (.receptionVeto readings) s = execReceptionVeto readings s := rfl

theorem exec_frameVetoed (s : State) : exec .frameVetoed s = execFrameVetoed s := rfl

theorem exec_frameAccepted (f : LineFrame) (s : State) : exec (.frameAccepted f) s = execFrameAccepted f s := rfl

theorem exec_renewalDue (r : Resource) (s : State) : exec (.renewalDue r) s = execRenewalDue r s := rfl

theorem exec_selfLapse (r : Resource) (s : State) : exec (.selfLapse r) s = execSelfLapse r s := rfl

theorem exec_expiryWatchThreshold (r : Resource) (holder : Station) (s : State) : exec (.expiryWatchThreshold r holder) s = execExpiryWatchThreshold r holder s := rfl

theorem exec_presenceDue (s : State) : exec .presenceDue s = execPresenceDue s := rfl

theorem exec_presenceWatchThreshold (v : Station) (s : State) : exec (.presenceWatchThreshold v) s = execPresenceWatchThreshold v s := rfl

theorem exec_joinWaitTimeout (s : State) : exec .joinWaitTimeout s = execJoinWaitTimeout s := rfl

theorem exec_segmentStallTimeout (s : State) : exec .segmentStallTimeout s = execSegmentStallTimeout s := rfl

theorem exec_keepWindowOpen (s : State) : exec .keepWindowOpen s = execKeepWindowOpen s := rfl

theorem exec_keepPeriodEnd (s : State) : exec .keepPeriodEnd s = execKeepPeriodEnd s := rfl

theorem exec_idleTimerReached (s : State) : exec .idleTimerReached s = execIdleTimerReached s := rfl

theorem exec_supplyDriveThreshold (crossing : SupplyCrossing) (s : State) : exec (.supplyDriveThreshold crossing) s = execSupplyDriveThreshold crossing s := rfl

theorem exec_csHighSeen (s : State) : exec .csHighSeen s = execCsHighSeen s := rfl

/-! ## Time passing -/

theorem insertByRank_perm (rank : Instr → Nat) (x : Instr) (xs : List Instr) :
    (insertByRank rank x xs).Perm (x :: xs) := by
  induction xs with
  | nil => exact List.Perm.refl _
  | cons y ys ih =>
    unfold insertByRank
    split
    · exact List.Perm.refl _
    · exact (ih.cons y).trans (List.Perm.swap x y ys)

/-- The free order neither drops an event nor adds one (log 3). -/
theorem orderByRank_perm (rank : Instr → Nat) (xs : List Instr) : (orderByRank rank xs).Perm xs := by
  induction xs with
  | nil => exact List.Perm.refl _
  | cons x xs ih => exact (insertByRank_perm rank x _).trans (ih.cons x)

theorem LineUnit.advance_eq (l : LineUnit) (bits : Nat) :
    l.advance bits = { l with backoff :=
      if l.tx = .backoff ∧ l.backoffHeld = false then l.backoff.map (· - bits) else l.backoff } := by
  rcases l with ⟨tx, current, backoff, held, _⟩
  cases tx <;> cases held <;> cases backoff <;> rfl

/-- Settles O2: the tick is the advance of every timer, and what it queues is what is due, in some order. -/
theorem emptyQueuePassesOneMillisecond : Obligations.EmptyQueuePassesOneMillisecond := by
  intro s hempty
  refine ⟨s.tick, by unfold step; rw [hempty], ?_, orderByRank_perm _ _⟩
  rw [← LineUnit.advance_eq]
  rfl

/-! ## The closed port -/

theorem State.portOpen_iff (s : State) :
    s.portOpen = true ↔ s.power.phase = .running ∧ (s.port = .ready ∨ s.port = .noteOut) := by
  simp [State.portOpen]

/-- Settles O4: a host command is taken through the port, which is not open. -/
theorem closedPortTakesNoCommand : Obligations.ClosedPortTakesNoCommand := by
  intro c s hc hclosed
  have hport : s.portOpen = false := by
    rw [← Bool.not_eq_true, State.portOpen_iff]
    exact hclosed
  cases c with
  | readStatus | readCause | clearCause | writeConfig | readConfig | start | stop | claim | release | withdraw | keep
  | readNote | noteCount | queryEntry | queryRoster | queryRequest | restoreTimebase | reset | unknownCommand
  | transactionAborted =>
    simp only [exec, execReadStatus, execReadCause, execClearCause, execWriteConfig, execReadConfig, execStart, execStop,
      execClaim, execRelease, execWithdraw, execKeep, execReadNote, execNoteCount, execQueryEntry, execQueryRoster,
      execQueryRequest, execRestoreTimebase, execReset, execUnknownCommand, execTransactionAborted,
      takeCommand_closed _ hport]
  | _ => exact absurd (show false = true from hc) Bool.false_ne_true

/-! ## Resets -/

theorem Replica.cleared_entry (r : Resource) : Replica.cleared.entries[r] = Entry.cleared :=
  Vector.getElem_replicate ..

theorem Replica.cleared_roster (v : Station) : Replica.cleared.roster[v] = RosterEntry.cleared :=
  Vector.getElem_replicate ..

theorem ResetPhase.pinActive_iff (p : ResetPhase) :
    p.pinActive = true ↔ p = .pin ∨ ∃ q, p = .powerOn q ∧ q.pinActive = true := by
  cases p <;> simp [ResetPhase.pinActive]

theorem State.outputPin_ne_low (s : State) : s.outputPin false ≠ .low := by
  unfold State.outputPin
  repeat' split
  all_goals simp_all

theorem State.resetBlocks_active (s : State) (keep : Bool) (x : Fin 8) :
    (s.resetBlocks keep).gou.active[x] = false := by
  cases keep <;> exact Vector.getElem_replicate ..

theorem State.resetBlocks_maps (s : State) (x : Fin 8) : (s.resetBlocks false).gou.maps[x] = none :=
  Vector.getElem_replicate ..

/-- What a reset of any kind leaves, whatever phase it goes on in (R4, R32, R54, R87, R94, R107, R128, R139, R148, R178). -/
theorem State.resetBlocks_values (s : State) (keep : Bool) (p : ResetPhase) (t : State)
    (ht : t = (s.resetBlocks keep).setPhase p) :
    (∀ r : Resource, t.replica.entries[r] = { mode := .free, gen := 0, holders := [], waiters := [] })
    ∧ (∀ v : Station, t.replica.roster[v] = { state := .absent, inc := 0, provider := none, providingFor := none })
    ∧ (∀ x : Fin 8, t.gou.active[x] = false ∧ t.grantPin x ≠ .low) ∧ t.irqPin ≠ .low := by
  subst ht
  refine ⟨Replica.cleared_entry, Replica.cleared_roster, fun x => ⟨s.resetBlocks_active keep x, ?_⟩,
    State.outputPin_ne_low _⟩
  have hx : ((s.resetBlocks keep).setPhase p).gou.active[x] = false := s.resetBlocks_active keep x
  unfold State.grantPin
  rw [hx]
  exact State.outputPin_ne_low _

/-- Settles O5: the command reset, the power-on reset and the pin reset in turn. -/
theorem everyResetGivesResetValues : Obligations.EveryResetGivesResetValues := by
  intro c s hc
  rcases hc with ⟨rfl, hphase, hport⟩ | rfl | ⟨rfl, hphase⟩
  · obtain ⟨he, hr, hx, hirq⟩ := s.resetBlocks_values true .command _ rfl
    refine ⟨(s.resetBlocks true).setPhase .command, ?_, rfl, rfl, rfl, rfl, rfl, rfl, rfl, rfl, rfl, rfl, rfl, rfl, he, hr,
      rfl, rfl, rfl, rfl, rfl, rfl, rfl, hx, hirq, fun _ => ⟨rfl, rfl, rfl⟩, fun h => absurd rfl h, nofun, nofun, rfl⟩
    rw [exec_commandReset, execCommandReset, if_pos ⟨hphase, hport⟩]
  · obtain ⟨he, hr, hx, hirq⟩ := s.resetBlocks_values false
      (.powerOn { holding := false, pinActive := s.power.phase.pinActive, pinLow := false }) _ rfl
    exact ⟨s.powerOn, rfl, rfl, rfl, rfl, rfl, rfl, rfl, rfl, rfl, rfl, rfl, rfl, rfl, he, hr, rfl, rfl, rfl, rfl, rfl, rfl,
      rfl, hx, hirq, nofun, fun _ => ⟨rfl, s.resetBlocks_maps⟩,
      fun _ => ⟨_, rfl, rfl, rfl, s.power.phase.pinActive_iff⟩, nofun, rfl⟩
  · obtain ⟨he, hr, hx, hirq⟩ := s.resetBlocks_values false .pin _ rfl
    refine ⟨(s.resetBlocks false).setPhase .pin, ?_, rfl, rfl, rfl, rfl, rfl, rfl, rfl, rfl, rfl, rfl, rfl, rfl, he, hr,
      rfl, rfl, rfl, rfl, rfl, rfl, rfl, hx, hirq, nofun, fun _ => ⟨rfl, s.resetBlocks_maps⟩, nofun, fun _ => rfl, rfl⟩
    rw [exec_pinReset]
    unfold execPinReset
    split
    · exact absurd ‹_› (hphase _)
    all_goals rfl

/-! ## The reset-cause record -/

theorem ResetCause.byte_bits (c : ResetCause) : (ResetCause.byte c).getLsbD 0 = c.power
    ∧ (ResetCause.byte c).getLsbD 1 = c.pin ∧ (ResetCause.byte c).getLsbD 2 = c.command
    ∧ (ResetCause.byte c).toNat < 8 := by
  rcases c with ⟨power, pin, command⟩
  cases power <;> cases pin <;> cases command <;> decide

/-- The end of a hold time, with its two flags as propositions. -/
theorem State.holdTimeEnds_eq (s : State) (p : PowerOnReset) :
    s.holdTimeEnds p = { s with
      power := { s.power with phase := if p.pinLow = true ∧ p.pinActive = true then .pin else .running }
      cause := { power := true, pin := decide (p.pinLow = true ∧ p.pinActive = false), command := false } } := by
  have hpin : (p.pinLow && !p.pinActive) = decide (p.pinLow = true ∧ p.pinActive = false) := by
    cases p.pinLow <;> cases p.pinActive <;> rfl
  unfold State.holdTimeEnds
  rw [hpin]
  rfl

/-- Settles O6: each command and each end of a reset, by the phase it finds. -/
theorem resetCauseRecord : Obligations.ResetCauseRecord := by
  intro s
  refine ⟨fun ho => ?read, fun ho => ?clear, fun p hp hh => ?holdEnds, fun hn => ?noHold, fun p hp => ?pinLow,
    fun p hp => ?pinHigh, fun p hp => ?again, fun hp => ?pinEnds, fun hp => ?commandEnds⟩
  case read =>
    obtain ⟨h0, h1, h2, h8⟩ := s.cause.byte_bits
    refine ⟨s.cause.byte, h0, h1, h2, h8, ?_⟩
    rw [exec_readCause, execReadCause, takeCommand_open _ ho]
    rfl
  case clear =>
    rw [exec_clearCause, execClearCause, takeCommand_open _ ho]
    rfl
  case holdEnds =>
    rw [exec_powerOnResetEnd]
    unfold execPowerOnResetEnd
    rw [hp]
    simp only [hh, if_true, State.holdTimeEnds_eq]
  case noHold =>
    rw [exec_powerOnResetEnd]
    unfold execPowerOnResetEnd
    split
    · rename_i p hp
      rw [if_neg (by simp [hn p hp])]
    all_goals rfl
  case pinLow =>
    have hlow : (p.pinLow || p.holding) = decide (p.pinLow = true ∨ p.holding = true) := by
      cases p.pinLow <;> cases p.holding <;> rfl
    rw [exec_pinReset]
    unfold execPinReset
    rw [hp]
    simp only [hlow]
    rfl
  case pinHigh =>
    rw [exec_pinResetEnd]
    unfold execPinResetEnd
    rw [hp]
    rfl
  case again =>
    refine ⟨s.powerOn, rfl, rfl, ?_⟩
    show Power.mk (.powerOn { holding := false, pinActive := s.power.phase.pinActive, pinLow := false }) _ = _
    rw [hp]
    rfl
  case pinEnds =>
    rw [exec_pinResetEnd]
    unfold execPinResetEnd
    rw [hp]
    rfl
  case commandEnds =>
    rw [exec_commandResetEnd]
    unfold execCommandResetEnd
    rw [if_pos hp]
    rfl

/-! ## Supply -/

/-- Settles O7: the three crossings, and what the pins show by the drivers and the phase. -/
theorem supplyDriveThreshold : Obligations.SupplyDriveThreshold := by
  intro s pinLow
  refine ⟨rfl, ?falling, fun p hp => ?holdBegins, fun hn => ?goesOn, fun hd => ?undriven, fun hd hp => ?high⟩
  case falling =>
    exact ⟨_, _, rfl, rfl, rfl, rfl, rfl, s.power.phase.pinActive_iff, rfl, rfl, rfl, rfl, rfl, rfl⟩
  case holdBegins =>
    have hactive : (p.pinActive || pinLow) = decide (p.pinActive = true ∨ pinLow = true) := by
      cases p.pinActive <;> cases pinLow <;> rfl
    simp only [exec_supplyDriveThreshold, execSupplyDriveThreshold, hp, ResetPhase.holdFrom, hactive]
    rfl
  case goesOn =>
    have hphase : s.power.phase.holdFrom pinLow = s.power.phase := by
      unfold ResetPhase.holdFrom
      split <;> first | exact absurd ‹_› (hn _) | exact Eq.symm ‹_›
    simp only [exec_supplyDriveThreshold, execSupplyDriveThreshold, hphase]
    rfl
  case undriven =>
    have hpin : ∀ b, s.outputPin b = .highZ := fun b => by simp [State.outputPin, hd]
    exact ⟨hpin _, fun x => hpin _, by simp [State.lineDrive, hd], fun cs => by simp [State.sdoDriven, hd]⟩
  case high =>
    have hpin : ∀ b, s.outputPin b = .high := fun b => by simp [State.outputPin, hd, hp]
    exact ⟨hpin _, fun x => hpin _, fun cs => by simp [State.sdoDriven, hp]⟩

/-- Settles O8: each is one arm of the port. -/
theorem portTransactions : Obligations.PortTransactions := by
  intro s code
  refine ⟨fun ho => ?reset, fun ho => ?unknown, fun ho => ?aborted, fun hp hw => ?csHigh⟩
  case reset =>
    rw [exec_reset, execReset, takeCommand_open _ ho]
    rfl
  case unknown =>
    rw [exec_unknownCommand, execUnknownCommand, takeCommand_open _ ho]
    rfl
  case aborted =>
    rw [exec_transactionAborted, execTransactionAborted, takeCommand_open _ ho]
    rfl
  case csHigh =>
    rw [exec_csHighSeen, execCsHighSeen, if_pos ⟨hp, hw⟩]
    rfl

/-! ## The state after reset -/

theorem Entry.cleared_lawful : Entry.cleared.consistent = true ∧ Entry.cleared.settled = true := by decide

theorem Replica.cleared_tableOk : Replica.cleared.tableOk := by
  intro r
  rw [Replica.cleared_entry]
  exact Entry.cleared_lawful

/-- Settles O60: the reset values one by one; the invariants hold since every queue and every entry is empty. -/
theorem resetStateHasInvariants : Obligations.ResetStateHasInvariants := by
  have hmaps : ∀ x : Fin 8, State.reset.gou.maps[x] = none ∧ State.reset.gou.active[x] = false :=
    fun x => ⟨Vector.getElem_replicate .., Vector.getElem_replicate ..⟩
  have houtputs : State.reset.outputsOk :=
    ⟨(lineLevels_offline (s := State.reset) nofun).symm, rfl, Nat.le_refl 1⟩
  obtain ⟨hrequests, hnotes, hcatchUp⟩ : State.reset.queuesOk := State.reset.resetBlocks_queuesOk false
  exact ⟨rfl, rfl, rfl, rfl, rfl, rfl, rfl, Replica.cleared_entry, Replica.cleared_roster, rfl, rfl, rfl, hmaps, rfl, rfl,
    rfl, rfl, rfl, rfl, rfl, rfl, rfl, rfl, houtputs, hrequests, hnotes, hcatchUp, Replica.cleared_tableOk⟩

end Sys2Proof.Machine
end

section
/-! The serial port's bytes (R153, R154, R192, R203), the two table queries (R174, R175), and the records of the
notification queue (R180 to R187). -/

namespace Sys2Proof

/-! ## The bytes clocked in -/

/-- The first byte names the command, and its argument bytes follow (R203). -/
theorem hostCommandOf_table (rest : List Byte) (a b c : Byte) :
    hostCommandOf (0x10 :: rest) = .readStatus ∧ hostCommandOf (0x11 :: rest) = .readCause
    ∧ hostCommandOf (0x12 :: rest) = .clearCause ∧ hostCommandOf (0x21 :: rest) = .readConfig
    ∧ hostCommandOf (0x30 :: rest) = .start ∧ hostCommandOf (0x31 :: rest) = .stop
    ∧ hostCommandOf (0x32 :: rest) = .restoreTimebase ∧ hostCommandOf (0x3F :: rest) = .reset
    ∧ hostCommandOf (0x43 :: rest) = .keep ∧ hostCommandOf (0x50 :: rest) = .readNote
    ∧ hostCommandOf (0x51 :: rest) = .noteCount
    ∧ hostCommandOf (0x40 :: a :: b :: c :: rest) = .claim a b c
    ∧ hostCommandOf (0x41 :: a :: rest) = .release a ∧ hostCommandOf (0x42 :: a :: rest) = .withdraw a
    ∧ hostCommandOf (0x60 :: a :: rest) = .queryEntry a ∧ hostCommandOf (0x61 :: a :: rest) = .queryRoster a
    ∧ hostCommandOf (0x62 :: a :: rest) = .queryRequest a :=
  ⟨rfl, rfl, rfl, rfl, rfl, rfl, rfl, rfl, rfl, rfl, rfl, rfl, rfl, rfl, rfl, rfl, rfl⟩

theorem hostCommandOf_writeConfig (args : List Byte) : hostCommandOf (0x20 :: args) =
    if 17 ≤ args.length then .writeConfig (args.take 17) else .transactionAborted := rfl

/-- A CLAIM cut off before its third argument byte takes nothing (R153). -/
theorem hostCommandOf_claim_short {args : List Byte} (h : args.length < 3) :
    hostCommandOf (0x40 :: args) = .transactionAborted := by
  match args with
  | [] | [_] | [_, _] => rfl
  | _ :: _ :: _ :: _ => simp at h; omega

/-- A byte outside the table names no command (R154). -/
theorem hostCommandOf_unknown (code : Byte) (rest : List Byte)
    (h : code ∉ ([0x10, 0x11, 0x12, 0x20, 0x21, 0x30, 0x31, 0x32, 0x3F, 0x40, 0x41, 0x42, 0x43, 0x50, 0x51, 0x60, 0x61,
      0x62] : List Byte)) : hostCommandOf (code :: rest) = .unknownCommand code := by
  have hcode : ∀ n : Nat, code.toNat = n → code = BitVec.ofNat 8 n := by
    intro n hn
    rw [← hn, BitVec.ofNat_toNat, BitVec.setWidth_eq]
  unfold hostCommandOf
  dsimp only
  split
  all_goals first
    | rfl
    | exact absurd (hcode _ ‹_›) (fun he => h (by rw [he]; decide))

end Sys2Proof

namespace Sys2Proof.Machine

/-! ## The bits of SDO -/

theorem byteBits_getD (b : Byte) {k : Nat} (hk : k < 8) : (byteBits b).getD k false = b.getLsbD (7 - k) := by
  match k, hk with
  | 0, _ | 1, _ | 2, _ | 3, _ | 4, _ | 5, _ | 6, _ | 7, _ => rfl

/-- The most significant bit of each byte goes out first (R192). -/
theorem sdoBit_eq (taken : Nat) (response : List Byte) (i : Nat) {k : Nat} (hk : k < 8) :
    sdoBit taken response (8 * i + k) = (sdoByte taken response i).getLsbD (7 - k) := by
  have hdiv : (8 * i + k) / 8 = i := by omega
  have hmod : (8 * i + k) % 8 = k := by omega
  rw [sdoBit, hdiv, hmod, byteBits_getD _ hk]

theorem sdoByte_after (taken : Nat) (response : List Byte) (i : Nat) :
    sdoByte taken response (taken + i) = response.getD i 0x00 := by
  rw [sdoByte, if_neg (by omega), Nat.add_sub_cancel_left]

/-- Settles O9: the table of the bytes in, and then SDO byte by byte and bit by bit. -/
theorem serialTransactionBytes : Obligations.SerialTransactionBytes := by
  refine ⟨fun rest args a b c => ?_, fun s c i => ⟨fun hi => if_pos hi, fun b hb => ?_, fun hi => ?_, fun k hk hp => ?_,
    fun cs hoff => ?_⟩⟩
  · obtain ⟨h1, h2, h3, h4, h5, h6, h7, h8, h9, h10, h11, h12, h13, h14, h15, h16, h17⟩ :=
      hostCommandOf_table rest a b c
    refine ⟨h1, h2, h3, h4, h5, h6, h7, h8, h9, h10, h11, h12, h13, h14, h15, h16, h17, fun hl => ?_, fun hl => ?_,
      fun hl => hostCommandOf_claim_short hl, by decide, rfl, fun code hcode => hostCommandOf_unknown code rest hcode⟩
    · rw [List.cons_append, hostCommandOf_writeConfig, if_pos (by simp [hl]), ← hl, List.take_left]
    · rw [hostCommandOf_writeConfig, if_neg (by omega)]
  · rw [sdoByte_after, List.getD_eq_getElem?_getD, hb]
    rfl
  · rw [sdoByte_after, List.getD_eq_getElem?_getD, List.getElem?_eq_none hi, Option.getD_none]
  · have hdriven : s.sdoDriven true = true := by simp [State.sdoDriven, hp]
    rw [State.sdoPin, if_pos hdriven, sdoBit_eq _ _ _ hk]
  · have hoff : s.sdoDriven cs = false := by
      rcases hoff with h | h | h <;> simp [State.sdoDriven, h]
    rw [State.sdoPin, if_neg (by simp [hoff])]

/-! ## Table queries -/

theorem resourceOf_of_val {b : Byte} {r : Resource} (h : b.toNat = r.val) : resourceOf b = some r := by
  rw [← byteOf_of_toNat_eq h]
  exact resourceOf_resourceByte r

theorem stationOf_of_val {b : Byte} {v : Station} (h : b.toNat = v.val) : stationOf b = some v := by
  rw [← byteOf_of_toNat_eq h]
  exact stationOf_stationByte v

theorem exec_queryEntry_of_resource {s : State} {b : Byte} {r : Resource} (ho : s.portOpen = true)
    (h : resourceOf b = some r) :
    exec (.queryEntry b) s = .next (s.answered (0x00 :: byteOf (s.entryBytes r).length :: s.entryBytes r)) := by
  rw [exec_queryEntry, execQueryEntry, takeCommand_open _ ho]
  simp only [h]
  rfl

theorem exec_queryRoster_of_station {s : State} {b : Byte} {v : Station} (ho : s.portOpen = true)
    (h : stationOf b = some v) :
    exec (.queryRoster b) s = .next (s.answered (0x00 :: byteOf (s.rosterBytes v).length :: s.rosterBytes v)) := by
  rw [exec_queryRoster, execQueryRoster, takeCommand_open _ ho]
  simp only [h]
  rfl

/-- Settles O12: the bytes are those of `State.entryBytes` and `State.rosterBytes`, field by field. -/
theorem tableQueriesGiveEntries : Obligations.TableQueriesGiveEntries := by
  intro s b ho
  refine ⟨fun r hr => ?entry, fun hb => ?noEntry, fun v hv => ?roster, fun hb => ?noRoster⟩
  case entry =>
    refine ⟨_, lineBits_getLsbD _, s.entryBytes r, exec_queryEntry_of_resource ho (resourceOf_of_val hr), ?_⟩
    have hbyte : resourceByte r = b := byteOf_of_toNat_eq hr
    unfold State.entryBytes
    rw [hbyte]
    rfl
  case noEntry =>
    have hnone : resourceOf b = none := by simp [resourceOf, Nat.not_lt.mpr hb]
    rw [exec_queryEntry, execQueryEntry, takeCommand_open _ ho]
    simp only [hnone]
    rfl
  case roster => exact exec_queryRoster_of_station ho (stationOf_of_val hv)
  case noRoster =>
    have hnone : stationOf b = none := by simp [stationOf, Nat.not_lt.mpr hb]
    rw [exec_queryRoster, execQueryRoster, takeCommand_open _ ho]
    simp only [hnone]
    rfl

/-! ## Notification records -/

/-- A record that arrives while there is room (R180, R181). -/
theorem NoteUnit.arrive_room {n : NoteUnit} (h : n.queue.length < 32) (x : Note) : n.arrive x = { n with
    queue := n.queue ++ [x], idle := if n.queue = [] then .running 0 else n.idle } := by
  unfold NoteUnit.arrive
  rw [if_pos (show _ < Config.noteQueueSize from h)]
  simp only [List.isEmpty_iff]

theorem NoteUnit.arrive_full {n : NoteUnit} (h : 32 ≤ n.queue.length) (x : Note) :
    n.arrive x = { n with dropped := min 255 (n.dropped + 1) } := by
  unfold NoteUnit.arrive
  rw [if_neg (show ¬ _ < Config.noteQueueSize from Nat.not_lt.mpr h)]

/-- Settles O23: the head leaves under `settle`, and the two ways a record arrives. -/
theorem notesArriveAndLeave : Obligations.NotesArriveAndLeave := by
  refine ⟨fun s x rest hphase hport hqueue => ?_, fun n x => ⟨fun h => n.arrive_room h x, fun h => n.arrive_full h x⟩⟩
  refine ⟨_, by rw [exec_noteRecordRemoved, execNoteRecordRemoved, hphase, hport, hqueue], ?_⟩
  have hsettles := (State.settle_settlesTo (s.setNu { s.nu with
    queue := rest, idle := if rest.isEmpty then .stopped else .running 0 })).withPort .ready
  simp only [List.isEmpty_iff] at hsettles ⊢
  exact hsettles

/-- Settles O22: whether an OVERFLOW is placed, and then whether there is a head. -/
theorem readNoteGivesHead : Obligations.ReadNoteGivesHead := by
  intro s ho
  have hexec : exec .readNote s = .next (match s.placeOverflow.nu.queue with
      | x :: _ => (s.placeOverflow.answer .ok x.bytes).setPort .noteOut
      | [] => s.placeOverflow.answer .empty (List.replicate 4 0x00)) := by
    rw [exec_readNote, execReadNote, takeCommand_open _ ho] <;> rfl
  have hnone : s.nu.dropped = 0 ∨ 32 ≤ s.nu.queue.length → s.placeOverflow = s := by
    intro h
    rw [State.placeOverflow, if_neg]
    rintro ⟨hd, hl⟩
    rcases h with h | h
    · exact hd h
    · exact absurd hl (Nat.not_lt.mpr h)
  refine ⟨fun h x rest hq => ?head, fun hd hq => ?empty, fun hd hl => ?overflow⟩
  case head =>
    rw [hexec, hnone h, hq]
    rfl
  case empty =>
    rw [hexec, hnone (.inl hd), hq]
    rfl
  case overflow =>
    have hplaced : s.placeOverflow = (s.setNu { s.nu with
        queue := s.nu.queue ++ [.overflow s.nu.dropped], dropped := 0,
        idle := if s.nu.queue = [] then .running 0 else s.nu.idle }).settle := by
      rw [State.placeOverflow, if_pos ⟨hd, hl⟩, NoteUnit.arrive_room hl]
    have hsettles := State.settle_settlesTo (s.setNu { s.nu with
      queue := s.nu.queue ++ [.overflow s.nu.dropped], dropped := 0,
      idle := if s.nu.queue = [] then .running 0 else s.nu.idle })
    rw [← hplaced] at hsettles
    obtain ⟨x, rest, hcons⟩ := List.exists_cons_of_ne_nil
      (show s.nu.queue ++ [.overflow s.nu.dropped] ≠ [] by simp)
    have hqueue : s.placeOverflow.nu.queue = x :: rest := hsettles.nu_queue.trans hcons
    refine ⟨_, x, rest, by rw [hexec, hqueue], hcons, ?_⟩
    exact (hsettles.withAnswer (0x00 :: x.bytes)).withPort .noteOut

/-! ## Line Unit events -/

/-- Settles O28: each event under the conditions that it asks of the transmitter. -/
theorem lineUnitEvents : Obligations.LineUnitEvents := by
  intro s
  refine ⟨fun htm hclock hrx htx => ?refclk, fun hi h1 h2 h3 => ?integration, fun n htx hb => ?jamBackoff,
    fun htx hb => ?jamIdle, fun htx => ?idle, fun htx => ?send, fun htx hheld => ?backoff⟩
  case refclk =>
    have hquiet : s.lu.quiet = true := by rcases htx with h | h | h <;> simp [LineUnit.quiet, h, hrx]
    rw [exec_lineUnitTakesRefclk, execLineUnitTakesRefclk, if_pos ⟨htm, hclock, hquiet⟩]
    rfl
  case integration =>
    have hsending : ¬ s.lu.sending = true := by
      rw [Bool.not_eq_true, LineUnit.sending_false_iff]
      exact ⟨h1, h2, h3⟩
    refine ⟨_, ?_, State.settle_settlesTo _⟩
    rw [exec_integrationWaitEnd, execIntegrationWaitEnd, if_pos ⟨hi, hsending⟩]
    rfl
  case jamBackoff =>
    refine ⟨_, ?_, State.settle_settlesTo _⟩
    rw [exec_jamEnd, execJamEnd, htx, hb]
    rfl
  case jamIdle =>
    refine ⟨_, ?_, State.settle_settlesTo _⟩
    rw [exec_jamEnd, execJamEnd, htx, hb]
    rfl
  case idle =>
    refine ⟨_, ?_, State.settle_settlesTo _⟩
    rw [exec_jamEnd, execJamEnd]
    rcases htx with h | h | h <;> rw [h] <;> rfl
  case send => rw [exec_jamEnd, execJamEnd, htx]
  case backoff =>
    refine ⟨_, ?_, State.settle_settlesTo _⟩
    rw [exec_backoffEnd, execBackoffEnd, if_pos ⟨htx, hheld⟩]
    rfl

end Sys2Proof.Machine
end

section
/-! The configuration record, written and read back (R161 to R163, R203), and the requests of the host (R164 to R167). -/

namespace Sys2Proof.Machine

/-! ## Each field of a record and the byte that spells it -/

theorem stationByte_of_stationOf {b : Byte} {v : Station} (h : stationOf b = some v) : stationByte v = b := by
  unfold stationOf at h
  split at h
  · injection h with h
    exact byteOf_of_toNat_eq (by rw [← h])
  · exact nomatch h

theorem rateByte_of_rateOf {b : Byte} {r : BitRate} (h : rateOf b = some r) : rateByte r = b := by
  unfold rateOf at h
  split at h
  · injection h with h; subst h; exact Eq.symm ‹_›
  · split at h
    · injection h with h; subst h; exact Eq.symm ‹_›
    · split at h
      · injection h with h; subst h; exact Eq.symm ‹_›
      · exact nomatch h

theorem rangeOf_eq_some {lo hi n : Nat} {b : Byte} (h : rangeOf lo hi b = some n) : (lo ≤ n ∧ n ≤ hi) ∧ byteOf n = b := by
  unfold rangeOf at h
  split at h
  · injection h with h
    subst h
    exact ⟨‹_›, byteOf_of_toNat_eq rfl⟩
  · exact nomatch h

theorem retryOf_eq_some {n : Nat} {b : Byte} (h : retryOf b = some n) : (n = 8 ∨ n = 16) ∧ byteOf n = b := by
  unfold retryOf at h
  split at h
  · injection h with h; subst h; exact ⟨.inl rfl, Eq.symm ‹_›⟩
  · split at h
    · injection h with h; subst h; exact ⟨.inr rfl, Eq.symm ‹_›⟩
    · exact nomatch h

theorem retryOf_byteOf {n : Nat} (h : n = 8 ∨ n = 16) : retryOf (byteOf n) = some n := by
  rcases h with rfl | rfl <;> decide

theorem keepOf_eq_some {n : Nat} {b : Byte} (h : keepOf b = some n) :
    (n = 0 ∨ (2 ≤ n ∧ n ≤ 255)) ∧ byteOf n = b := by
  unfold keepOf at h
  split at h
  · exact nomatch h
  · rename_i hne
    injection h with h
    have hb : byteOf n = b := byteOf_of_toNat_eq h
    have hone : n ≠ 1 := by
      rintro rfl
      exact hne hb.symm
    have := b.isLt
    exact ⟨by omega, hb⟩

theorem keepOf_byteOf {n : Nat} (h : n = 0 ∨ (2 ≤ n ∧ n ≤ 255)) : keepOf (byteOf n) = some n := by
  have hn : (byteOf n).toNat = n := byteOf_toNat n (by omega)
  have hone : byteOf n ≠ 0x01 := by
    intro he
    rw [he] at hn
    have : (0x01 : Byte).toNat = 1 := rfl
    omega
  rw [keepOf, if_neg hone, hn]

theorem mapByte_of_mapOf : ∀ b : Byte, (mapOf b).all (fun m => mapByte m == b) = true := by decide +kernel

/-- The eight map bytes are read back one by one. -/
theorem mapM_map_of_leftInverse {α β : Type} {f : α → Option β} {g : β → α} (h : ∀ y, f (g y) = some y) (ys : List β) :
    (ys.map g).mapM f = some ys := by
  induction ys with
  | nil => rfl
  | cons y ys ih => simp [h, ih]

theorem map_of_mapM {α β : Type} {f : α → Option β} {g : β → α} (h : ∀ x y, f x = some y → g y = x) :
    ∀ (xs : List α) (ys : List β), xs.mapM f = some ys → ys.map g = xs := by
  intro xs
  induction xs with
  | nil => rintro ys hys; cases hys; rfl
  | cons x xs ih =>
    intro ys hys
    rw [List.mapM_cons] at hys
    cases hx : f x with
    | none => rw [hx] at hys; exact nomatch hys
    | some y =>
      rw [hx] at hys
      cases hxs : xs.mapM f with
      | none => rw [hxs] at hys; exact nomatch hys
      | some zs =>
        rw [hxs] at hys
        injection hys with hys
        subst hys
        rw [List.map_cons, h x y hx, ih zs hxs]

theorem toList_of_vectorOf {α : Type} {n : Nat} {xs : List α} {v : Vector α n} (h : vectorOf n xs = some v) :
    v.toList = xs := by
  unfold vectorOf at h
  split at h
  · injection h with h
    subst h
    rfl
  · exact nomatch h

theorem mapsOf_maps (maps : Vector (Option LineMap) 8) : mapsOf (maps.toList.map mapByte) = some maps := by
  rw [mapsOf, mapM_map_of_leftInverse mapOf_mapByte]
  exact vectorOf_toList maps

theorem maps_of_mapsOf {bytes : List Byte} {maps : Vector (Option LineMap) 8} (h : mapsOf bytes = some maps) :
    maps.toList.map mapByte = bytes := by
  unfold mapsOf at h
  cases hm : bytes.mapM mapOf with
  | none => rw [hm] at h; exact nomatch h
  | some ms =>
    rw [hm] at h
    rw [toList_of_vectorOf h]
    refine map_of_mapM (fun b m hb => ?_) bytes ms hm
    have := mapByte_of_mapOf b
    rw [hb] at this
    simpa using this

/-! ## The record as a whole -/

theorem ConfigRecord.bytes_length (c : ConfigRecord) : c.bytes.length = 17 := by
  simp [ConfigRecord.bytes]

/-- A record in range is read back from its bytes (R161, R203). -/
theorem configRecordOf_bytes {c : ConfigRecord} (h : c.inRange) : configRecordOf c.bytes = some c := by
  rcases c with ⟨st, rate, l, p, m, retry, k, n, tn, maps, digest⟩
  obtain ⟨hl, hp, hm, hretry, hk, hn, htn, hdigest⟩ := h
  simp only at hl hp hm hretry hk hn htn hdigest
  unfold ConfigRecord.bytes configRecordOf
  simp only [List.cons_append, List.nil_append, stationOf_stationByte, rateOf_rateByte,
    rangeOf_byteOf _ _ _ hl (by decide), rangeOf_byteOf _ _ _ hp (by decide), rangeOf_byteOf _ _ _ hm (by decide),
    retryOf_byteOf hretry, keepOf_byteOf hk, rangeOf_byteOf _ _ _ hn (by decide), rangeOf_byteOf _ _ _ htn (by decide),
    mapsOf_maps]
  rw [hdigest, networkDigest]

/-- A record that is read lies in range and spells the bytes it was read from (R161, R203). -/
theorem inRange_of_configRecordOf {bytes : List Byte} {c : ConfigRecord} (h : configRecordOf bytes = some c) :
    c.inRange ∧ c.bytes = bytes := by
  unfold configRecordOf at h
  split at h
  · split at h
    · rename_i hst hrate hl hp hm hretry hk hn htn hmaps
      injection h with h
      subst h
      obtain ⟨hl, hlb⟩ := rangeOf_eq_some hl
      obtain ⟨hp, hpb⟩ := rangeOf_eq_some hp
      obtain ⟨hm, hmb⟩ := rangeOf_eq_some hm
      obtain ⟨hretry, hretryb⟩ := retryOf_eq_some hretry
      obtain ⟨hk, hkb⟩ := keepOf_eq_some hk
      obtain ⟨hn, hnb⟩ := rangeOf_eq_some hn
      obtain ⟨htn, htnb⟩ := rangeOf_eq_some htn
      refine ⟨⟨hl, hp, hm, hretry, hk, hn, htn, rfl⟩, ?_⟩
      simp only [ConfigRecord.bytes, stationByte_of_stationOf hst, rateByte_of_rateOf hrate, hlb, hpb, hmb, hretryb, hkb,
        hnb, htnb, maps_of_mapsOf hmaps, List.cons_append, List.nil_append]
    · exact nomatch h
  · exact nomatch h

/-- Settles O15: the stored record's own bytes, and the round trip through `configRecordOf`. -/
theorem readConfigReturnsRecord : Obligations.ReadConfigReturnsRecord := by
  refine ⟨fun s ho => ⟨fun c hc => ?_, fun hc => ?_⟩, fun c hc => ⟨c.bytes_length, configRecordOf_bytes hc⟩⟩
  · rw [exec_readConfig, execReadConfig, takeCommand_open _ ho]
    simp only [hc]
    rfl
  · rw [exec_readConfig, execReadConfig, takeCommand_open _ ho]
    simp only [hc]
    rfl

theorem exec_writeConfig_of_open {s : State} (ho : s.portOpen = true) (bytes : List Byte) :
    exec (.writeConfig bytes) s = .next (match configRecordOf bytes with
      | some c => if s.sc.station = .offline then
          (((s.setConfig (some c)).setGou { s.gou with maps := c.maps }).setNu { s.nu with idle := match s.nu.idle with
              | .running n => if c.irqIdle ≤ n then .reached else .running n
              | .stopped => .stopped
              | .reached => .reached }).settle.answer .ok []
        else s.answer .refusedState []
      | none => s.answer .refusedArg []) := by
  rw [exec_writeConfig, execWriteConfig, takeCommand_open _ ho]
  rfl

/-- Settles O14: the bytes spell a record in range or none at all. -/
theorem writeConfigReplacesRecord : Obligations.WriteConfigReplacesRecord := by
  intro s ho
  refine ⟨fun c hc hoff => ?_, fun c hc hon => ?_, fun bytes _ hno => ?_⟩
  · refine ⟨_, ?_, State.settle_answer _ .ok []⟩
    rw [exec_writeConfig_of_open ho, configRecordOf_bytes hc]
    simp only [hoff, if_true]
    rfl
  · rw [exec_writeConfig_of_open ho, configRecordOf_bytes hc]
    simp only [hon, if_false]
    rfl
  · have hnone : configRecordOf bytes = none := Option.eq_none_iff_forall_ne_some.mpr fun c hc => by
      obtain ⟨hrange, hbytes⟩ := inRange_of_configRecordOf hc
      exact hno c hrange hbytes
    rw [exec_writeConfig_of_open ho, hnone]
    rfl

/-! ## Requests -/

theorem State.requestFor_isSome (s : State) (r : Resource) :
    (s.requestFor r).isSome = s.requests.any (fun q => q.r == r) := by
  rw [State.requestFor, Bool.eq_iff_iff, List.find?_isSome, List.any_eq_true]

/-- The first check that a request fails, of the three that all requests share (R165 to R167). -/
theorem State.requestRefusal_eq (s : State) (r : Resource) : s.requestRefusal r =
    if s.sc.station ≠ .member then some .refusedState
    else if 16 ≤ s.requests.length then some .queueFull
    else if s.requests.any (fun q => q.r == r) ∨ s.surrendering r then some .resourceBusy
    else none := by
  rw [State.requestRefusal, State.requestFor_isSome]
  rfl

theorem exec_claim_of_open {s : State} (ho : s.portOpen = true) (rb mb wb : Byte) {r : Resource} {m : LeaseMode} {w : Bool}
    (hr : resourceOf rb = some r) (hm : modeOf mb = some m) (hw : waitOf wb = some w) :
    exec (.claim rb mb wb) s = .next (if claimStatus s rb mb wb = 0x00 then s.acceptRequest (.claim m w) r
      else s.answered [claimStatus s rb mb wb, 0xFF]) := by
  rw [exec_claim, execClaim, takeCommand_open _ ho]
  simp only [hr, hm, hw, claimStatus, State.requestRefusal_eq]
  by_cases hmember : s.sc.station = .member
  case neg => simp only [hmember, ne_eq, not_false_eq_true, if_true]; rfl
  by_cases hfull : 16 ≤ s.requests.length
  case pos => simp only [hmember, hfull, ne_eq, not_true_eq_false, if_false, if_true]; rfl
  by_cases hbusy : s.requests.any (fun q => q.r == r) = true ∨ s.surrendering r = true
  case pos => simp only [hmember, hfull, hbusy, ne_eq, not_true_eq_false, if_false, if_true]; rfl
  simp only [hmember, hfull, hbusy, ne_eq, not_true_eq_false, if_false]
  cases s.holdsOwn r <;> cases s.waitsOwn r <;> cases s.kp.permit.isLapsed <;> rfl

/-- The same for the two removals, whose last check and status are given (R166, R167). -/
theorem removal_of_open {s : State} (rb : Byte) (ok : Resource → Bool) (st : Status) (kind : RequestKind) {r : Resource}
    (hst : st.byte ≠ 0x00) (hr : resourceOf rb = some r) :
    (match s.requestRefusal r with
      | some st => s.refuseRequest st
      | none => if ok r then s.acceptRequest kind r else s.refuseRequest st)
      = if removalStatus s rb ok st.byte = 0x00 then s.acceptRequest kind r
        else s.answered [removalStatus s rb ok st.byte, 0xFF] := by
  simp only [hr, removalStatus, State.requestRefusal_eq]
  by_cases hmember : s.sc.station = .member
  case neg => simp only [hmember, ne_eq, not_false_eq_true, if_true]; rfl
  by_cases hfull : 16 ≤ s.requests.length
  case pos => simp only [hmember, hfull, ne_eq, not_true_eq_false, if_false, if_true]; rfl
  by_cases hbusy : s.requests.any (fun q => q.r == r) = true ∨ s.surrendering r = true
  case pos => simp only [hmember, hfull, hbusy, ne_eq, not_true_eq_false, if_false, if_true]; rfl
  simp only [hmember, hfull, hbusy, ne_eq, not_true_eq_false, if_false]
  cases ok r with
  | true => rfl
  | false =>
    simp only [Bool.false_eq_true, if_false, hst]
    rfl

/-- A status 00h says that the queue has room. -/
theorem room_of_claimStatus {s : State} {rb mb wb : Byte} {r : Resource} {m : LeaseMode} {w : Bool}
    (hr : resourceOf rb = some r) (hm : modeOf mb = some m) (hw : waitOf wb = some w)
    (h : claimStatus s rb mb wb = 0x00) : s.requests.length < 16 := by
  simp only [claimStatus, hr, hm, hw] at h
  refine Decidable.byContradiction fun hfull => ?_
  rw [if_pos (Nat.not_lt.mp hfull)] at h
  split at h <;> exact absurd h (by decide)

theorem room_of_removalStatus {s : State} {rb : Byte} {ok : Resource → Bool} {status : Byte} {r : Resource}
    (hr : resourceOf rb = some r) (h : removalStatus s rb ok status = 0x00) : s.requests.length < 16 := by
  simp only [removalStatus, hr] at h
  refine Decidable.byContradiction fun hfull => ?_
  rw [if_pos (Nat.not_lt.mp hfull)] at h
  split at h <;> exact absurd h (by decide)

/-- What an accepted request leaves (R164). -/
theorem State.acceptRequest_settles (s : State) (kind : RequestKind) (r : Resource) :
    SettlesTo (State.answered { s with requests := s.requests ++
        [{ tag := s.freeTag, kind := kind, r := r, state := .queued, count := 0 }] }
      [0x00, BitVec.ofNat 8 s.freeTag.val]) (s.acceptRequest kind r) :=
  State.settle_answer _ .ok [byteOf s.freeTag.val]

/-- An operand that no encoding covers is refused before any other check (R157). -/
theorem claimStatus_of_unreadable {s : State} {rb mb wb : Byte}
    (h : ¬ ∃ r m w, resourceOf rb = some r ∧ modeOf mb = some m ∧ waitOf wb = some w) :
    claimStatus s rb mb wb = 0x02 := by
  unfold claimStatus
  split
  · exact absurd ⟨_, _, _, ‹_›, ‹_›, ‹_›⟩ h
  · rfl

/-- Settles O18: the checks as `claimStatus` gives them, and the lowest free tag. -/
theorem claimQueuesRequest : Obligations.ClaimQueuesRequest := by
  intro s rb mb wb ho
  refine ⟨fun r m w hr hm hw hst => ?_, fun hst => ?_⟩
  · obtain ⟨hfree, hlow⟩ := State.freeTag_lowest (room_of_claimStatus hr hm hw hst)
    refine ⟨_, s.freeTag, ?_, hfree, hlow, s.acceptRequest_settles (.claim m w) r⟩
    rw [exec_claim_of_open ho rb mb wb hr hm hw, if_pos hst]
  · by_cases hargs : ∃ r m w, resourceOf rb = some r ∧ modeOf mb = some m ∧ waitOf wb = some w
    · obtain ⟨r, m, w, hr, hm, hw⟩ := hargs
      rw [exec_claim_of_open ho rb mb wb hr hm hw, if_neg hst]
    · rw [exec_claim, execClaim, takeCommand_open _ ho, claimStatus_of_unreadable hargs]
      split
      · exact absurd ⟨_, _, _, ‹_›, ‹_›, ‹_›⟩ hargs
      · rfl

theorem exec_release_of_open {s : State} (ho : s.portOpen = true) {rb : Byte} {r : Resource}
    (hr : resourceOf rb = some r) :
    exec (.release rb) s = .next (if removalStatus s rb s.holdsOwn 0x08 = 0x00 then s.acceptRequest .release r
      else s.answered [removalStatus s rb s.holdsOwn 0x08, 0xFF]) := by
  rw [exec_release, execRelease, takeCommand_open _ ho]
  simp only [hr]
  exact congrArg _ (removal_of_open rb s.holdsOwn .notHolder .release (by decide) hr)

theorem exec_withdraw_of_open {s : State} (ho : s.portOpen = true) {rb : Byte} {r : Resource}
    (hr : resourceOf rb = some r) :
    exec (.withdraw rb) s = .next (if removalStatus s rb s.waitsOwn 0x0A = 0x00 then s.acceptRequest .withdraw r
      else s.answered [removalStatus s rb s.waitsOwn 0x0A, 0xFF]) := by
  rw [exec_withdraw, execWithdraw, takeCommand_open _ ho]
  simp only [hr]
  exact congrArg _ (removal_of_open rb s.waitsOwn .notWaiting .withdraw (by decide) hr)

/-- While a host RELEASE of a resource is pending, none of its lines is active (R148). -/
theorem State.lineCondition_of_releasePending {t : State} {x : Fin 8} {m : LineMap} (hm : t.gou.maps[x] = some m)
    (h : t.releasePending m.r = true) : t.lineCondition x = false := by
  simp [State.lineCondition, hm, State.driveCondition, h]

theorem State.not_offered_of_not_allowed {t : State} {h : OwnHold} (ha : t.renewAllowed h = false) :
    (t.withRenewal h).offered = false := by
  have hnot := mt (t.withRenewal_spec h).1 (by simp [ha])
  simpa using hnot

/-- Settles O19: the checks as `removalStatus` gives them; a RELEASE pending closes lines and RENEW. -/
theorem removalsQueueRequest : Obligations.RemovalsQueueRequest := by
  intro s rb ho
  refine ⟨fun r hr hst => ?released, fun hst => ?notReleased, fun r hr hst => ?withdrawn, fun hst => ?notWithdrawn⟩
  case released =>
    obtain ⟨hfree, hlow⟩ := State.freeTag_lowest (room_of_removalStatus hr hst)
    have hsettles := s.acceptRequest_settles .release r
    have hpending : (s.acceptRequest .release r).releasePending r = true := by
      simp [State.releasePending, hsettles.requests, State.answered]
    refine ⟨_, s.freeTag, by rw [exec_release_of_open ho hr, if_pos hst], hfree, hlow, hsettles, fun x m hm hmr => ?_,
      fun h hh hhr => ?_⟩
    · have hmaps : (s.acceptRequest .release r).gou.maps[x] = some m := by rw [hsettles.gou_maps]; exact hm
      rw [hsettles.lines, State.lineLevels_getElem]
      exact State.lineCondition_of_releasePending hmaps (hmr ▸ hpending)
    · rw [hsettles.holds] at hh
      obtain ⟨h', -, rfl⟩ := List.mem_map.mp hh
      rw [State.withRenewal_r] at hhr
      exact State.not_offered_of_not_allowed (by simp [State.renewAllowed, hhr, hpending])
  case withdrawn =>
    obtain ⟨hfree, hlow⟩ := State.freeTag_lowest (room_of_removalStatus hr hst)
    exact ⟨_, s.freeTag, by rw [exec_withdraw_of_open ho hr, if_pos hst], hfree, hlow, s.acceptRequest_settles .withdraw r⟩
  case notReleased =>
    cases hr : resourceOf rb with
    | some r => rw [exec_release_of_open ho hr, if_neg hst]
    | none =>
      rw [exec_release, execRelease, takeCommand_open _ ho]
      simp only [hr, removalStatus]
      rfl
  case notWithdrawn =>
    cases hr : resourceOf rb with
    | some r => rw [exec_withdraw_of_open ho hr, if_neg hst]
    | none =>
      rw [exec_withdraw, execWithdraw, takeCommand_open _ ho]
      simp only [hr, removalStatus]
      rfl

end Sys2Proof.Machine
end

section
/-! START and STOP (R57, R58, R73, R74), RESTORE_TIMEBASE with the overdue verdicts (R126, R135), the windows that do not
leave REFERENCE (R129, R131, R134, R138), and the timers of the keep period and of the notification queue. -/

namespace Sys2Proof.Machine

/-! ## What stands after `settle`, read off in the state before -/

/-- The records told by a change stand, whatever IRQ# does. -/
theorem SettlesTo.notes {e t : State} (h : SettlesTo e t) {n : NoteUnit} {xs : List Note} (he : e.nu = n.arriveAll xs) :
    { t.nu with irq := n.irq } = n.arriveAll xs := by
  have hirq : e.nu.irq = n.irq := by rw [he, NoteUnit.arriveAll_irq]
  rw [← hirq, h.nu_but_irq, he]

theorem SettlesTo.tu_but_holds {e t : State} (h : SettlesTo e t) : t.tu = { e.tu with holds := t.tu.holds } :=
  congrArg State.tu h.frame

theorem SettlesTo.lu_but_tx {e t : State} (h : SettlesTo e t) {l : LineUnit} {x : Option Attempt} {y : TxState}
    (he : { e.lu with tx := y, current := x } = l) : { t.lu with tx := y, current := x } = l := by
  rw [h.frame, ← he]

theorem SettlesTo.lines_off {e t : State} (h : SettlesTo e t) (hm : e.sc.station ≠ .member) (x : Fin 8) :
    t.gou.active[x] = false := by
  rw [h.lines, lineLevels_offline (by rw [h.sc]; exact hm)]
  exact Vector.getElem_replicate ..

/-- Whether a RENEW may be offered does not turn on what `settle` changes. -/
theorem SettlesTo.renewAllowed {e t : State} (h : SettlesTo e t) (x : OwnHold) : t.renewAllowed x = e.renewAllowed x := by
  simp only [State.renewAllowed, State.surrendering, State.releasePending, h.sc, h.tu_surrender, h.requests, h.kp]

theorem SettlesTo.renewalMs {e t : State} (h : SettlesTo e t) : t.renewalMs = e.renewalMs := by
  simp only [State.renewalMs, State.configField, h.config]

theorem LineUnit.sending_iff (l : LineUnit) : l.sending = true ↔ l.tx = .send ∨ l.tx = .jam ∨ l.tx = .veto := by
  simp [LineUnit.sending, or_assoc]

/-! ## START -/

/-- At a join start every source has withdrawn its frame (R56, R92). -/
theorem State.joinStart_current (s : State) :
    s.joinStart.lu.current = s.lu.current.map (fun a => { a with withdrawn := true }) := by
  have hline : ∀ (x : State) b, (x.lineJoinStart b).lu.current = x.lu.current := by
    intro x b
    unfold State.lineJoinStart
    simp only [State.setLu_lu]
    split <;> rfl
  simp only [State.joinStart, hline, State.queueMembership_eq, State.withdrawAttempt_eq, State.clearReplica_eq,
    State.setSc_lu, State.setTu_lu, State.setReplica_lu, State.setLu_lu, Option.map_map]
  cases s.lu.current with
  | none => rfl
  | some a =>
    simp only [Option.map_some, Function.comp_apply, if_true, ite_self]

/-- A join start out of OFFLINE, whole (R57, R86, R99, R106). -/
theorem State.joinStart_offline {s : State} (h : s.sc.station = .offline) :
    s.joinStart = { s with
      replica := Replica.cleared, tu := TimerUnit.afterReset,
      sc := { s.sc with
        station := .joinWait, attemptNo := 0, ownInc := 0, readyRequeue := 0, joinAccepted := false,
        catchUp := [], staged := none, joinTimer := none, stallTimer := none, shadow := none,
        control := [{ kind := .join, count := 0 }] },
      lu := { (if s.lu.tx = .send ∨ s.lu.tx = .jam ∨ s.lu.tx = .veto then s.lu else s.lu.cleared) with
        vetoCount := 0, muted := false, integrating := true,
        current := s.lu.current.map (fun a => { a with withdrawn := true }) } } := by
  obtain ⟨l, hl⟩ := s.joinStart_eq
  have hcurrent : s.lu.current.map (fun a => { a with withdrawn := true }) = l := by
    rw [← s.joinStart_current, hl]
  rw [hl, hcurrent]
  by_cases hsending : s.lu.tx = .send ∨ s.lu.tx = .jam ∨ s.lu.tx = .veto
  · simp [h, StationState.onLine, (s.lu.sending_iff).mpr hsending, hsending]
  · have hno : s.lu.sending = false := by
      rw [← Bool.not_eq_true, s.lu.sending_iff]
      exact hsending
    simp [h, StationState.onLine, hno, hsending, LineUnit.endReception_eq]

/-- Settles O16: a join start out of OFFLINE, and R58's refusals in their order. -/
theorem startMakesJoinStart : Obligations.StartMakesJoinStart := by
  intro s ho
  refine ⟨fun hoff hc htm => ⟨s.joinStart.settle.answer .ok [], ?starts, ?settles⟩, fun hon => ?state, fun hoff hc => ?config, fun hoff hc htm => ?timebase⟩
  case starts =>
    rw [exec_start, execStart, takeCommand_open _ ho, if_neg (not_not_intro hoff), if_neg hc, if_neg (not_not_intro htm)]
  case settles =>
    have hsettles := s.joinStart.settle_answer .ok []
    rw [s.joinStart_offline hoff] at hsettles
    rw [s.joinStart_offline hoff]
    exact hsettles
  case state =>
    rw [exec_start, execStart, takeCommand_open _ ho, if_pos hon]
    rfl
  case config =>
    rw [exec_start, execStart, takeCommand_open _ ho, if_neg (not_not_intro hoff), if_pos hc]
    rfl
  case timebase =>
    rw [exec_start, execStart, takeCommand_open _ ho, if_neg (not_not_intro hoff), if_neg hc, if_pos htm]
    rfl

/-! ## STOP -/

theorem exec_stop_of_open {s x : State} (ho : s.portOpen = true) (h : s.stop = some x) :
    exec .stop s = .next (x.settle.answer .ok []) := by
  rw [exec_stop, execStop, takeCommand_open _ ho]
  simp only [h]

/-- STOP where nothing is on the line for the group to know of (R73, R106, R125). -/
theorem State.stopOffline_eq (s : State) : ∃ lu, s.stopOffline = { s with
    lu := lu, tu := { s.tu with presenceTimer := none, presenceOffer := none }
    nu := s.nu.arriveAll [.station .offline .stop]
    sc := { s.sc with
      station := .offline, catchUp := [], staged := none, joinTimer := none, stallTimer := none
      control := s.sc.control.filter (fun c => !c.kind.isMembership) } } := by
  obtain ⟨l1, h1⟩ := s.withdrawMembership_form
  obtain ⟨l2, h2⟩ := State.stopPresence_form { s with
    lu := { s.lu with current := l1 }
    sc := { s.sc with control := s.sc.control.filter (fun c => !c.kind.isMembership) } }
  unfold State.stopOffline
  rw [h1, h2]
  unfold State.lineOff State.setLu
  exact ⟨_, rfl⟩

theorem stopOffline_answers {s : State} (ho : s.portOpen = true) (h : s.stop = some s.stopOffline) :
    ∃ t, exec .stop s = .next t ∧ t.response = [0x00] ∧ t.sc.station = .offline
      ∧ t.sc.control = s.sc.control.filter (fun c => !c.kind.isMembership)
      ∧ { t.nu with irq := s.nu.irq } = s.nu.arriveAll [.station .offline .stop]
      ∧ t.replica = s.replica ∧ t.requests = s.requests ∧ t.config = s.config ∧ t.tm = s.tm ∧ t.kp = s.kp := by
  obtain ⟨lu, he⟩ := s.stopOffline_eq
  have hs := s.stopOffline.settle_answer .ok []
  refine ⟨_, exec_stop_of_open ho h, rfl, ?_, ?_, hs.notes ?_, ?_, ?_, ?_, ?_, ?_⟩
  · rw [hs.sc]; simp only [State.answered, he]
  · rw [hs.sc]; simp only [State.answered, he]
  · simp only [State.answered, he]
  · rw [hs.replica]; simp only [State.answered, he]
  · rw [hs.requests]; simp only [State.answered, he]
  · rw [hs.config]; simp only [State.answered, he]
  · rw [hs.tm]; simp only [State.answered, he]
  · rw [hs.kp]; simp only [State.answered, he]

/-- What leaving does to the whole state, told with the record that follows it (R73, R74, R77). -/
theorem State.leavingTold_eq (s : State) (i : LeaveIntent) (x : LeaveReplica) (n : Note) :
    ∃ l, (s.enterLeaving i x).note n = { s with
      requests := [], kp := { permit := .none, timer := none }
      nu := s.nu.arriveAll (s.requests.map (fun q => .done q.tag .cancelled q.r) ++ [n])
      sc := { s.sc with
        station := .leaving i x, catchUp := [], staged := none, joinTimer := none, stallTimer := none,
        control := s.sc.control.filter (fun c => !c.kind.isMembership) ++ [{ kind := .leave, count := 0 }] }
      tu := { s.withdrawVerdicts.tu with
        presenceTimer := none, presenceOffer := none,
        holds := s.tu.holds.map (fun h => { h with running := false }) }
      lu := { s.lu with current := l } } := by
  obtain ⟨l, h⟩ := s.enterLeaving_eq i x
  exact ⟨l, by rw [h, NoteUnit.arriveAll_append]; rfl⟩

/-- A withdrawal that the attempt's source has no part in. -/
theorem State.withdrawAttempt_other {s : State} {p : Source → Bool} (h : ∀ a, s.lu.current = some a → p a.source = false) :
    s.withdrawAttempt p = s := by
  unfold State.withdrawAttempt
  split
  · rw [if_neg (by simp [h _ ‹_›])]
  · rfl

/-- A verdict whose attempt has begun is not among what leaving withdraws (R115, R119). -/
theorem State.enterLeaving_current {s : State} (i : LeaveIntent) (x : LeaveReplica) {a : Attempt} {v : Verdict}
    (hc : s.lu.current = some a) (hv : a.source = .verdict v) : (s.enterLeaving i x).lu.current = s.lu.current := by
  rcases a with ⟨frame, source, count, withdrawn⟩
  obtain rfl : source = .verdict v := hv
  simp only [State.enterLeaving, State.endMember, State.cancelRequests, State.notes_foldl, State.queueMembership_eq,
    State.stopPresence_eq, State.withdrawVerdicts_eq, State.withdrawAttempt_eq, State.setSc_lu, State.setTu_lu,
    State.setKp_lu, State.setNu_lu, State.setRequests_lu, State.setLu_lu, hc, Option.map_some]
  simp

theorem State.verdictInAttempt_iff (s : State) (v : Verdict) : s.verdictInAttempt v = true ↔
    (s.lu.tx = .send ∨ s.lu.tx = .jam ∨ s.lu.tx = .veto) ∧ ∃ a, s.lu.current = some a ∧ a.source = .verdict v := by
  rw [State.verdictInAttempt, Bool.and_eq_true, LineUnit.sending_iff]
  simp [Option.any_eq_true]

/-- Settles O17: one station state after the other. -/
theorem stopByStationState : Obligations.StopByStationState := by
  intro s ho
  refine ⟨fun h => ?refused, fun h1 h2 => ?unheard, fun c h => ?faulted, fun h => ?joining, fun x h => ?rejoin,
    fun h => ?member⟩
  case refused =>
    have hnone : s.stop = none := by rcases h with h | ⟨x, h⟩ <;> simp [State.stop, h]
    rw [exec_stop, execStop, takeCommand_open _ ho]
    simp only [hnone]
    rfl
  case unheard => exact stopOffline_answers ho (by simp [State.stop, h1, h2])
  case faulted =>
    obtain ⟨t, h1, h2, h3, -, h4⟩ := stopOffline_answers (s := s) ho (by simp [State.stop, h])
    exact ⟨t, h1, h2, h3, h4⟩
  case joining =>
    obtain ⟨x, hx, hlive⟩ : ∃ x, s.stop = some ((s.enterLeaving .stopping x).note (.station (.leaving .stopping x) .stop))
        ∧ (x = .live ↔ s.sc.station = .synced) := by
      rcases h with ⟨h1, h2⟩ | h | h
      · exact ⟨.cleared, by simp [State.stop, h1, h2], by simp [h1]⟩
      · exact ⟨.cleared, by simp [State.stop, h], by simp [h]⟩
      · exact ⟨.live, by simp [State.stop, h], by simp [h]⟩
    obtain ⟨l, he⟩ := s.leavingTold_eq .stopping x (.station (.leaving .stopping x) .stop)
    have hs := State.settle_answer ((s.enterLeaving .stopping x).note (.station (.leaving .stopping x) .stop)) .ok []
    refine ⟨_, x, exec_stop_of_open ho hx, hlive, rfl, ?_, ?_, ?_, ?_, ?_, ?_, hs.notes ?_, ?_, ?_, ?_⟩
    iterate 6
      · rw [hs.sc]; simp only [State.answered, he]
    · simp only [State.answered, he]
    · rw [hs.replica]; simp only [State.answered, he]
    · rw [hs.config]; simp only [State.answered, he]
    · rw [hs.tm]; simp only [State.answered, he]
  case rejoin =>
    have hx : s.stop = some ((s.setSc { s.sc with station := .leaving .stopping x }).note
        (.station (.leaving .stopping x) .stop)) := by simp only [State.stop, h]
    exact ⟨_, exec_stop_of_open ho hx, State.settle_answer _ .ok []⟩
  case member =>
    have hx : s.stop = some ((s.enterLeaving .stopping .live).note (.station (.leaving .stopping .live) .stop)) := by
      simp [State.stop, h]
    obtain ⟨l, he⟩ := s.leavingTold_eq .stopping .live (.station (.leaving .stopping .live) .stop)
    have hs := State.settle_answer ((s.enterLeaving .stopping .live).note (.station (.leaving .stopping .live) .stop)) .ok []
    refine ⟨_, exec_stop_of_open ho hx, rfl, rfl, ?sc, ?requests, hs.notes ?notes, ?kp, fun y => hs.lines_off ?station y,
      ?maps, ?tu, s.verdictInAttempt_iff, fun a v ha hv => ?current, ?holds, ?replica, ?config, ?tm, ?cause, ?power,
      hs.lu_but_tx ?lu, ?pending, ?free⟩
    case sc => rw [hs.sc]; simp only [State.answered, he]
    case requests => rw [hs.requests]; simp only [State.answered, he]
    case notes => simp only [State.answered, he]
    case kp => rw [hs.kp]; simp only [State.answered, he]
    case station => simp only [State.answered, he]; exact nofun
    case maps => rw [hs.gou_maps]; simp only [State.answered, he]
    case tu =>
      refine hs.tu_but_holds.trans ?_
      simp only [State.answered, he, State.withdrawVerdicts_eq, State.setTu_tu]
    case current =>
      have hcur : ((s.enterLeaving .stopping .live).note (.station (.leaving .stopping .live) .stop)).lu.current
          = s.lu.current := State.enterLeaving_current .stopping .live ha hv
      refine (hs.current_same ?_).trans hcur
      intro b r hb hr
      have hab : b = a := Option.some.inj (hb.symm.trans (hcur.trans ha))
      rw [hab, hv] at hr
      exact nomatch hr
    case holds =>
      rw [hs.holds]
      simp only [State.answered, he, List.map_map]
      rfl
    case replica => rw [hs.replica]; simp only [State.answered, he]
    case config => rw [hs.config]; simp only [State.answered, he]
    case tm => rw [hs.tm]; simp only [State.answered, he]
    case cause => rw [hs.cause]; simp only [State.answered, he]
    case power => rw [hs.power]; simp only [State.answered, he]
    case lu => simp only [State.answered, he]
    case pending => rw [hs.pending]; simp only [State.answered, he]
    case free => rw [hs.freeIndex]; simp only [State.answered, he]

end Sys2Proof.Machine
end

section
/-! RESTORE_TIMEBASE with the overdue verdicts (R126, R135), the windows that do not leave REFERENCE (R129, R131, R134,
R138), and the timer thresholds (chapters 3, 5, 7, 9). -/

namespace Sys2Proof.Machine

/-! ## Every overdue verdict is queued -/

/-- What a pass over watches makes of the Timer Unit: verdicts join the queue at its end and watches are marked, which is
all; none is queued where none may be (R114, R126). -/
structure OffersVerdicts (s t : State) : Prop where
  frame : t = { s with tu := { s.tu with
    expiry := t.tu.expiry, presence := t.tu.presence, verdicts := t.tu.verdicts } }
  verdicts : ∃ more, t.tu.verdicts = s.tu.verdicts ++ more ∧ (s.mayJudge = false → more = [])
  expiry : t.tu.expiry.map (fun w => { w with queued := false }) = s.tu.expiry.map (fun w => { w with queued := false })
  presence : t.tu.presence.map (fun w => { w with queued := false })
    = s.tu.presence.map (fun w => { w with queued := false })

theorem OffersVerdicts.refl (s : State) : OffersVerdicts s s := ⟨rfl, ⟨[], by simp, fun _ => rfl⟩, rfl, rfl⟩

theorem OffersVerdicts.mayJudge {s t : State} (h : OffersVerdicts s t) : t.mayJudge = s.mayJudge := by
  rw [h.frame]
  rfl

theorem OffersVerdicts.trans {s t u : State} (h : OffersVerdicts s t) (g : OffersVerdicts t u) : OffersVerdicts s u := by
  obtain ⟨m1, h1, n1⟩ := h.verdicts
  obtain ⟨m2, h2, n2⟩ := g.verdicts
  refine ⟨?_, ⟨m1 ++ m2, by rw [h2, h1, List.append_assoc], fun hj => ?_⟩, g.expiry.trans h.expiry,
    g.presence.trans h.presence⟩
  · have hg := g.frame
    rw [h.frame] at hg
    exact hg
  · rw [n1 hj, n2 (h.mayJudge.trans hj)]
    rfl

/-- A verdict once queued stays queued through the pass. -/
theorem OffersVerdicts.keeps {s t : State} (h : OffersVerdicts s t) {v : Verdict}
    (hv : ∃ i ∈ s.tu.verdicts, i.verdict = v) : ∃ i ∈ t.tu.verdicts, i.verdict = v := by
  obtain ⟨more, hmore, -⟩ := h.verdicts
  obtain ⟨i, hi, hiv⟩ := hv
  exact ⟨i, by rw [hmore]; exact List.mem_append_left _ hi, hiv⟩

theorem State.offerExpire_offers (s : State) (w : ExpiryWatch) : OffersVerdicts s (s.offerExpire w) := by
  rw [State.offerExpire_eq]
  by_cases h : s.mayJudge = true ∧ w.queued = false ∧ s.expiryMs ≤ w.elapsed
  · refine ⟨rfl, ⟨[{ verdict := .expire w.r w.holder w.gen, count := 0 }], by simp only [State.setTu_tu, if_pos h], fun hj => ?_⟩, ?_, rfl⟩
    · rw [h.1] at hj
      exact nomatch hj
    · simp only [State.setTu_tu, if_pos h, List.map_map]
      congr 1
      funext x
      simp only [Function.comp_apply]
      split <;> rfl
  · simp only [if_neg h]
    exact OffersVerdicts.refl s

theorem State.offerEvict_offers (s : State) (w : PresenceWatch) : OffersVerdicts s (s.offerEvict w) := by
  rw [State.offerEvict_eq]
  by_cases h : s.mayJudge = true ∧ w.queued = false ∧ s.evictionMs ≤ w.elapsed
  · refine ⟨rfl, ⟨[{ verdict := .evict w.station w.inc, count := 0 }], by simp only [State.setTu_tu, if_pos h], fun hj => ?_⟩, rfl, ?_⟩
    · rw [h.1] at hj
      exact nomatch hj
    · simp only [State.setTu_tu, if_pos h, List.map_map]
      congr 1
      funext x
      simp only [Function.comp_apply]
      split <;> rfl
  · simp only [if_neg h]
    exact OffersVerdicts.refl s

theorem OffersVerdicts.foldl {α : Type} {f : State → α → State} (hf : ∀ s a, OffersVerdicts s (f s a)) (xs : List α) :
    ∀ s, OffersVerdicts s (xs.foldl f s) := by
  induction xs with
  | nil => exact OffersVerdicts.refl
  | cons x xs ih => exact fun s => (hf s x).trans (ih (f s x))

/-- What one element of a pass queues is queued after the pass, as long as its condition stands until its turn. -/
theorem OffersVerdicts.queued_of_mem {α : Type} {f : State → α → State} (hf : ∀ s a, OffersVerdicts s (f s a))
    {due : State → α → Prop} (hdue : ∀ s t a, OffersVerdicts s t → due s a → due t a) {v : α → Verdict}
    (hv : ∀ s a, due s a → ∃ i ∈ (f s a).tu.verdicts, i.verdict = v a) {x : α} (xs : List α) :
    ∀ s, x ∈ xs → due s x → ∃ i ∈ (xs.foldl f s).tu.verdicts, i.verdict = v x := by
  induction xs with
  | nil => exact fun s hx => nomatch hx
  | cons y ys ih =>
    intro s hx hd
    rcases List.mem_cons.mp hx with rfl | hx
    · exact (OffersVerdicts.foldl hf ys _).keeps (hv s _ hd)
    · exact ih _ hx (hdue _ _ _ (hf s y) hd)

/-- An expiry watch whose EXPIRE is to be queued (R114). -/
def State.expireDue (s : State) (w : ExpiryWatch) : Prop :=
  s.mayJudge = true ∧ w.queued = false ∧ s.expiryMs ≤ w.elapsed

/-- A presence watch whose EVICT is to be queued (R119). -/
def State.evictDue (s : State) (w : PresenceWatch) : Prop :=
  s.mayJudge = true ∧ w.queued = false ∧ s.evictionMs ≤ w.elapsed

theorem OffersVerdicts.expireDue {s t : State} (h : OffersVerdicts s t) {w : ExpiryWatch} (hd : s.expireDue w) :
    t.expireDue w := by
  rw [h.frame]
  exact hd

theorem OffersVerdicts.evictDue {s t : State} (h : OffersVerdicts s t) {w : PresenceWatch} (hd : s.evictDue w) :
    t.evictDue w := by
  rw [h.frame]
  exact hd

theorem State.offerExpire_queues {s : State} {w : ExpiryWatch} (hd : s.expireDue w) :
    ∃ i ∈ (s.offerExpire w).tu.verdicts, i.verdict = .expire w.r w.holder w.gen := by
  rw [State.offerExpire_eq]
  simp only [State.setTu_tu, if_pos (show s.mayJudge = true ∧ w.queued = false ∧ s.expiryMs ≤ w.elapsed from hd)]
  exact ⟨_, List.mem_append_right _ (List.mem_singleton.mpr rfl), rfl⟩

theorem State.offerEvict_queues {s : State} {w : PresenceWatch} (hd : s.evictDue w) :
    ∃ i ∈ (s.offerEvict w).tu.verdicts, i.verdict = .evict w.station w.inc := by
  rw [State.offerEvict_eq]
  simp only [State.setTu_tu, if_pos (show s.mayJudge = true ∧ w.queued = false ∧ s.evictionMs ≤ w.elapsed from hd)]
  exact ⟨_, List.mem_append_right _ (List.mem_singleton.mpr rfl), rfl⟩

theorem State.offerExpire_presence (xs : List ExpiryWatch) : ∀ s : State,
    (xs.foldl State.offerExpire s).tu.presence = s.tu.presence := by
  induction xs with
  | nil => exact fun _ => rfl
  | cons x xs ih =>
    intro s
    rw [List.foldl_cons, ih, State.offerExpire_eq]
    rfl

theorem State.offerOverdue_offers (s : State) : OffersVerdicts s s.offerOverdue :=
  (OffersVerdicts.foldl State.offerExpire_offers s.tu.expiry s).trans
    (OffersVerdicts.foldl State.offerEvict_offers _ _)

/-- R126: no overdue watch is passed over. -/
theorem State.offerOverdue_queues (s : State) :
    (∀ w ∈ s.tu.expiry, s.expireDue w → ∃ i ∈ s.offerOverdue.tu.verdicts, i.verdict = .expire w.r w.holder w.gen)
    ∧ (∀ w ∈ s.tu.presence, s.evictDue w → ∃ i ∈ s.offerOverdue.tu.verdicts, i.verdict = .evict w.station w.inc) := by
  have hpass := OffersVerdicts.foldl State.offerExpire_offers s.tu.expiry s
  refine ⟨fun w hw hd => ?_, fun w hw hd => ?_⟩
  · exact (OffersVerdicts.foldl State.offerEvict_offers _ _).keeps
      (OffersVerdicts.queued_of_mem State.offerExpire_offers (fun _ _ _ h => h.expireDue)
        (due := State.expireDue) (v := fun w => .expire w.r w.holder w.gen) (fun _ _ => State.offerExpire_queues) _ s hw hd)
  · refine OffersVerdicts.queued_of_mem State.offerEvict_offers (fun _ _ _ h => h.evictDue)
      (due := State.evictDue) (v := fun w => .evict w.station w.inc) (fun _ _ => State.offerEvict_queues) _ _ ?_ (hpass.evictDue hd)
    rw [State.offerExpire_presence]
    exact hw

theorem SettlesTo.nu_but_settled {e t : State} (h : SettlesTo e t) : t.nu = { e.nu with irq := t.nu.irq } := by
  rw [h.frame]

/-- Settles O21: REFERENCE and the record first, then the pass over the watches. -/
theorem restoreTimebaseReturnsToReference : Obligations.RestoreTimebaseReturnsToReference := by
  intro s ho
  have hexec : exec .restoreTimebase s = .next (match s.tm.timebase with
      | .startup | .reference => s.answer .refusedState []
      | .degraded => if s.tm.recovered then
          ((s.setTm { timebase := .reference, goodCount := 0, recovered := false }).note
            (.timebase .restored)).offerOverdue.settle.answer .ok []
        else s.answer .noTimebase []) := by
    rw [exec_restoreTimebase, execRestoreTimebase, takeCommand_open _ ho] <;> rfl
  refine ⟨fun h => ?_, fun h hr => ?_, fun h hr => ?_⟩
  · rw [hexec]
    split
    · rfl
    · rfl
    · exact absurd ‹_› h
  · rw [hexec, h]
    simp only [hr, Bool.false_eq_true, if_false]
    rfl
  · rw [hexec, h]
    simp only [hr, if_true]
    have hoffers := State.offerOverdue_offers ((s.setTm { timebase := .reference, goodCount := 0, recovered := false }).note
      (.timebase .restored))
    have hqueues := State.offerOverdue_queues ((s.setTm { timebase := .reference, goodCount := 0, recovered := false }).note
      (.timebase .restored))
    have hjudge : ((s.setTm { timebase := .reference, goodCount := 0, recovered := false }).note
        (.timebase .restored)).mayJudge = (s.sc.station == .member) := by
      simp [State.mayJudge, State.note]
    generalize ((s.setTm { timebase := .reference, goodCount := 0, recovered := false }).note
      (.timebase .restored)).offerOverdue = x at hoffers hqueues
    have hs := x.settle_answer .ok []
    have hframe := hoffers.frame
    refine ⟨_, rfl, rfl, ?tm, ?notes, ?verdicts, fun hm w hw hq he => ?expire, fun hm w hw hq he => ?evict, ?expiry,
      ?presence, ?holds, ?frame⟩
    case tm => rw [hs.tm, hframe]; rfl
    case notes => exact hs.notes (xs := [.timebase .restored]) (by rw [hframe]; rfl)
    case verdicts =>
      obtain ⟨more, hmore, hnone⟩ := hoffers.verdicts
      refine ⟨more, hs.tu_verdicts.trans hmore, fun hm => hnone ?_⟩
      rw [hjudge, beq_eq_false_iff_ne]
      exact hm
    case expire =>
      rw [hs.tu_verdicts]
      exact hqueues.1 w hw ⟨by rw [hjudge, hm]; rfl, hq, he⟩
    case evict =>
      rw [hs.tu_verdicts]
      exact hqueues.2 w hw ⟨by rw [hjudge, hm]; rfl, hq, he⟩
    case expiry => rw [hs.tu_expiry]; exact hoffers.expiry
    case presence => rw [hs.tu_presence]; exact hoffers.presence
    case holds => rw [hs.holds, hframe]; rfl
    case frame =>
      rw [hs.tu_verdicts, hs.tu_expiry, hs.tu_presence, hs.tm, hs.response, hs.nu_but_settled]
      refine hs.frame.trans ?_
      rw [hframe]
      rfl

/-! ## Timers of the keep period and of the notification queue -/

/-- Settles O24: each timer above its threshold and below. -/
theorem periodTimersReached : Obligations.PeriodTimersReached := by
  intro s n
  refine ⟨fun hk hn => ?opens, fun hk hn => ?notYetOpen, fun hk hn => ?ends, fun hk hn => ?notYetEnded,
    fun c hi hc => ⟨fun hn => ?reached, fun hn => ?notReached⟩⟩
  case opens =>
    rw [exec_keepWindowOpen, execKeepWindowOpen, if_pos ⟨by rw [hk], by rw [hk]; simpa [State.keepWindowMs] using hn⟩, hk]
    rfl
  case notYetOpen =>
    rw [exec_keepWindowOpen, execKeepWindowOpen, if_neg]
    rintro ⟨-, h⟩
    rw [hk] at h
    simp [State.keepWindowMs] at h
    omega
  case ends =>
    have hs := (s.permitLapse .late).settle_settlesTo
    obtain ⟨current, members, hlapse⟩ := s.permitLapse_eq .late
    refine ⟨_, ?_, PermitLapses.of_settlesTo hs, by rw [hs.response, hlapse], by rw [hs.port, hlapse]⟩
    rw [exec_keepPeriodEnd, execKeepPeriodEnd, if_pos ⟨by rw [hk], by rw [hk]; simpa [State.keepPeriodMs] using hn⟩]
  case notYetEnded =>
    rw [exec_keepPeriodEnd, execKeepPeriodEnd, if_neg]
    rintro ⟨-, h⟩
    rw [hk] at h
    simp [State.keepPeriodMs] at h
    omega
  case reached =>
    refine ⟨(s.setNu { s.nu with idle := .reached }).refreshIrq, ?_, rfl, fun hq => ?_, rfl⟩
    · rw [exec_idleTimerReached, execIdleTimerReached, hi, hc]
      simp only [hn, if_true]
    · have hlen : 1 ≤ s.nu.queue.length := List.length_pos_iff.mpr hq
      show State.irqCondition _ = true
      simp [State.irqCondition, hc, hlen]
  case notReached =>
    rw [exec_idleTimerReached, execIdleTimerReached, hi, hc]
    simp only [Nat.not_le.mpr hn, if_false]

/-! ## Windows that do not leave REFERENCE -/

theorem goodWindow_iff (edges : Nat) : goodWindow edges = true ↔ 15680 ≤ edges ∧ edges ≤ 16320 := by
  rw [goodWindow, Bool.and_eq_true]
  exact and_congr decide_eq_true_iff decide_eq_true_iff

theorem exec_window_of_running {s : State} (h : s.power.phase = .running) (edges : Nat) (receiving : Bool) :
    exec (.measurementWindowEnd edges receiving) s = .next (s.windowEnd edges receiving).settle := by
  rw [exec_measurementWindowEnd, execMeasurementWindowEnd, if_pos h]

/-- A window's judgement, settled, settles to what the judgement leaves. -/
theorem window_settles {s e : State} (h : s.power.phase = .running) {edges : Nat} {receiving : Bool}
    (he : s.windowEnd edges receiving = e) :
    ∃ t, exec (.measurementWindowEnd edges receiving) s = .next t ∧ SettlesTo e t :=
  ⟨_, exec_window_of_running h edges receiving, he ▸ State.settle_settlesTo _⟩

/-- Settles O25: good and bad windows by timebase state and count. -/
theorem windowJudgement : Obligations.WindowJudgement := by
  intro s edges receiving hrun
  have setTm_self : ∀ x, x = s.tm → s.setTm x = s := by rintro x rfl; rfl
  refine ⟨fun hgood => ?_, fun hbad => ?_⟩
  · have hg : goodWindow edges = true := (goodWindow_iff edges).mpr hgood
    refine ⟨fun h hc => window_settles hrun ?_, fun h hc => window_settles hrun ?_, fun h => window_settles hrun ?_,
      fun h hr => window_settles hrun ?_, fun h hr hc => window_settles hrun ?_, fun h hr hc => window_settles hrun ?_⟩
    · have hn : ¬ Config.qualifyWindows ≤ s.tm.goodCount + 1 := by simp only [Config.qualifyWindows]; omega
      simp only [State.windowEnd, h, hg, if_true, hn, if_false, State.setTm]
    · have hn : Config.qualifyWindows ≤ s.tm.goodCount + 1 := by simp only [Config.qualifyWindows]; omega
      simp only [State.windowEnd, h, hg, if_true, hn]
      rfl
    · simp only [State.windowEnd, h, hg, if_true]
    · simp only [State.windowEnd, h, hg, if_true, hr]
    · have hn : ¬ Config.qualifyWindows ≤ s.tm.goodCount + 1 := by simp only [Config.qualifyWindows]; omega
      simp only [State.windowEnd, h, hg, if_true, hr, hn, if_false, Bool.false_eq_true, State.setTm]
    · have hn : Config.qualifyWindows ≤ s.tm.goodCount + 1 := by simp only [Config.qualifyWindows]; omega
      simp only [State.windowEnd, h, hg, if_true, hr, hn, if_false, Bool.false_eq_true]
      rfl
  · have hg : goodWindow edges = false := by
      rw [← Bool.not_eq_true, goodWindow_iff]
      exact hbad
    refine ⟨fun h => window_settles hrun ?_, fun h hr => window_settles hrun ?_, fun h hr => window_settles hrun ?_⟩
    · simp only [State.windowEnd, h, hg, Bool.false_eq_true, if_false, State.setTm]
    · simp only [State.windowEnd, h, hg, Bool.false_eq_true, if_false, hr, State.setTm]
    · simp only [State.windowEnd, h, hg, Bool.false_eq_true, if_false, hr, if_true]
      rfl

end Sys2Proof.Machine
end

section
/-! The thresholds of the renewal, presence, watch and join wait timers (R61, R109, R111, R114, R117, R119). -/

namespace Sys2Proof.Machine

/-! ## Frames that become due -/

/-- A record that stands at the threshold and whose conditions hold offers its RENEW. -/
theorem State.withRenewal_offers {t : State} {h : OwnHold} (hi : h.renewal = .idle) (ha : t.renewAllowed h = true)
    (hd : t.renewalMs ≤ h.elapsed) : (t.withRenewal h).renewal = .candidate 0 := by
  simp only [State.withRenewal, hi, ha, hd, and_self, if_true]

/-- R117: the presence condition holds in these states alone. -/
theorem State.presenceCondition_iff {s : State} {n : Nat} (hn : s.tu.presenceTimer = some n)
    (hst : s.sc.station = .member ∨ s.sc.station = .synced ∨ s.sc.station = .snapshot
      ∨ (s.sc.station = .joinWait ∧ s.sc.joinAccepted = true)) :
    s.presenceCondition = true ↔ 10 * s.configField ConfigRecord.presencePeriod ≤ n := by
  rw [State.presenceCondition, hn, timerReached_some, Bool.and_eq_true, decide_eq_true_iff]
  refine and_iff_right ?_
  rcases hst with h | h | h | ⟨h, hj⟩ <;> simp only [h]
  exact hj

/-- Settles O50: `settle` gives the RENEW of every record, and the presence offer is the row's own change. -/
theorem dueThresholdsOfferFrames : Obligations.DueThresholdsOfferFrames := by
  refine ⟨fun s r => ⟨fun hdue => ?renewal, fun hlow => ?notDue⟩, fun s n hn hst => ⟨fun hp => ?presence, fun hp => ?early⟩⟩
  case renewal =>
    have hs := s.settle_settlesTo
    refine ⟨s.settle, ?_, hs, fun h hmem hr hel hi hl hm hsur hrel hperm => ?_⟩
    · have hany : s.tu.holds.any (fun h => h.r == r && decide (s.renewalMs ≤ h.elapsed)) = true := by
        obtain ⟨h, hmem, hr, hel⟩ := hdue
        exact List.any_eq_true.mpr ⟨h, hmem, by simp [hr, State.renewalMs, hel]⟩
      rw [exec_renewalDue, execRenewalDue, if_pos hany]
    · refine ⟨s.settle.withRenewal h, by rw [hs.holds]; exact List.mem_map_of_mem hmem, hr, ?_⟩
      refine State.withRenewal_offers hi ?_ (hs.renewalMs ▸ hel)
      rw [hs.renewAllowed]
      subst hr
      simp [State.renewAllowed, hm, hl, hsur, hrel, hperm]
  case notDue =>
    rw [exec_renewalDue, execRenewalDue, if_neg]
    rw [List.any_eq_true]
    rintro ⟨h, hmem, hc⟩
    simp only [Bool.and_eq_true, beq_iff_eq, decide_eq_true_eq] at hc
    exact absurd hc.2 (Nat.not_le.mpr (hlow h hmem hc.1))
  case presence =>
    refine ⟨_, ?_, State.settle_settlesTo _⟩
    rw [exec_presenceDue, execPresenceDue, if_pos ((State.presenceCondition_iff hn hst).mpr hp)]
    rcases s.tu.presenceOffer with _ | k <;> rfl
  case early =>
    rw [exec_presenceDue, execPresenceDue, if_neg]
    rw [State.presenceCondition_iff hn hst]
    omega

/-! ## Self-lapse -/

theorem State.surrendering_lapseHold (s : State) (r : Resource) (h : s.releasePending r = false) :
    (s.lapseHold r).surrendering r = true := by
  rw [State.lapseHold_eq]
  by_cases hs : s.surrendering r = true
  · simp only [State.surrendering, h, Bool.false_eq_true, false_or] at hs ⊢
    rw [if_pos hs]
    exact hs
  · simp only [State.surrendering, h, Bool.false_eq_true, false_or] at hs ⊢
    rw [if_neg hs, List.any_eq_true]
    exact ⟨_, (insertSurrender_mem ..).mpr (Or.inl rfl), beq_self_eq_true r⟩

theorem State.lineCondition_of_surrendering {t : State} {x : Fin 8} {m : LineMap} (hm : t.gou.maps[x] = some m)
    (h : t.surrendering m.r = true) : t.lineCondition x = false := by
  simp [State.lineCondition, hm, State.driveCondition, h]

/-- Settles O51: `State.lapseHold_eq`, with the lines off for the pending RELEASE or for the surrender. -/
theorem selfLapseSurrendersHold : Obligations.SelfLapseSurrendersHold := by
  intro s r threshold hthr
  subst hthr
  refine ⟨fun hm ⟨h, hmem, hr, hl, hel⟩ => ?lapse, fun hlow => ?low⟩
  case lapse =>
    have hs := (s.lapseHold r).settle_settlesTo
    have hsur : s.releasePending r = false → (s.lapseHold r).settle.surrendering r = true := fun hp => by
      rw [State.surrendering, hs.tu_surrender]
      exact s.surrendering_lapseHold r hp
    refine ⟨_, ?_, by rw [← State.lapseHold_eq]; exact hs, fun x m hx hmr => ?_, hsur⟩
    · have hany : s.tu.holds.any (fun h => h.r == r && !h.lapsed && decide (s.lapseMs ≤ h.elapsed)) = true :=
        List.any_eq_true.mpr ⟨h, hmem, by simpa [hr, hl] using (show s.lapseMs ≤ h.elapsed from hel)⟩
      rw [exec_selfLapse, execSelfLapse, if_pos ⟨hm, hany⟩]
    · have hx' : (s.lapseHold r).settle.gou.maps[x] = some m := by
        rw [hs.gou_maps, State.lapseHold_eq]
        exact hx
      rw [hs.lines, State.lineLevels_getElem]
      subst hmr
      by_cases hp : s.releasePending m.r = true
      · refine State.lineCondition_of_releasePending hx' ?_
        rw [State.releasePending, hs.requests, State.lapseHold_eq]
        exact hp
      · exact State.lineCondition_of_surrendering hx' (hsur (Bool.not_eq_true _ ▸ hp))
  case low =>
    rw [exec_selfLapse, execSelfLapse, if_neg]
    rw [List.any_eq_true]
    rintro ⟨-, h, hmem, hc⟩
    simp only [Bool.and_eq_true, beq_iff_eq, Bool.not_eq_true', decide_eq_true_eq] at hc
    obtain ⟨⟨hr, hl⟩, hel⟩ := hc
    rcases hlow h hmem hr with hl' | hlt
    · rw [hl] at hl'
      exact nomatch hl'
    · exact absurd hel (Nat.not_le.mpr hlt)

/-! ## Watch thresholds -/

theorem find?_of_unique {α : Type} {p : α → Bool} {xs : List α} {x : α} (hx : x ∈ xs) (hp : p x = true)
    (hu : ∀ y ∈ xs, p y = true → y = x) : xs.find? p = some x := by
  obtain ⟨y, hy⟩ := Option.isSome_iff_exists.mp (List.find?_isSome.mpr ⟨x, hx, hp⟩)
  rw [hy, hu y (List.mem_of_find?_eq_some hy) (List.find?_some hy)]

theorem State.mayJudge_iff (s : State) :
    s.mayJudge = true ↔ s.sc.station = .member ∧ s.tm.timebase ≠ .degraded := by
  simp [State.mayJudge]

/-- A watch that may not judge, or whose verdict is queued, is left as it is. -/
theorem not_due_of {s : State} {q : Bool} {p : Prop}
    (h : s.sc.station ≠ .member ∨ s.tm.timebase = .degraded ∨ q = true) :
    ¬ (s.mayJudge = true ∧ q = false ∧ p) := by
  rintro ⟨hj, hq, -⟩
  obtain ⟨hm, hd⟩ := s.mayJudge_iff.mp hj
  rcases h with h | h | h
  · exact h hm
  · exact hd h
  · rw [hq] at h
    exact nomatch h

/-- Settles O52: the watch found is the one named, and `offerExpire` and `offerEvict` say what its turn makes. -/
theorem watchThresholdsQueueVerdicts : Obligations.WatchThresholdsQueueVerdicts := by
  intro s
  refine ⟨fun w hw hu => ⟨fun hel => ?expire, fun hlt => ?notExpired⟩, fun w hw hu => ⟨fun hel => ?evict, fun hlt => ?notEvicted⟩⟩
  case expire =>
    have hf : s.tu.expiry.find? (fun x => x.on w.r w.holder) = some w :=
      find?_of_unique hw (by simp [ExpiryWatch.on]) (fun y hy h => by
        simp only [ExpiryWatch.on, Bool.and_eq_true, beq_iff_eq] at h
        exact hu y hy h.1 h.2)
    have hexec : exec (.expiryWatchThreshold w.r w.holder) s = .next (s.offerExpire w).settle := by
      rw [exec_expiryWatchThreshold, execExpiryWatchThreshold, hf]
      exact congrArg _ (if_pos hel)
    refine ⟨fun hm hd hq => ⟨_, hexec, ?_⟩, fun h => ⟨_, hexec, ?_⟩⟩
    · have hdue : s.mayJudge = true ∧ w.queued = false ∧ s.expiryMs ≤ w.elapsed := ⟨s.mayJudge_iff.mpr ⟨hm, hd⟩, hq, hel⟩
      have hs := (s.offerExpire w).settle_settlesTo
      rw [State.offerExpire_eq] at hs ⊢
      simp only [if_pos hdue, ExpiryWatch.on, Bool.and_eq_true, beq_iff_eq] at hs ⊢
      exact hs
    · have hself : s.offerExpire w = s := by
        rw [State.offerExpire_eq]
        simp only [if_neg (not_due_of h)]
        rfl
      rw [hself]
      exact s.settle_settlesTo
  case notExpired =>
    have hf : s.tu.expiry.find? (fun x => x.on w.r w.holder) = some w :=
      find?_of_unique hw (by simp [ExpiryWatch.on]) (fun y hy h => by
        simp only [ExpiryWatch.on, Bool.and_eq_true, beq_iff_eq] at h
        exact hu y hy h.1 h.2)
    rw [exec_expiryWatchThreshold, execExpiryWatchThreshold, hf]
    exact congrArg _ (if_neg (Nat.not_le.mpr hlt))
  case evict =>
    have hf : s.tu.presence.find? (fun x => x.station == w.station) = some w :=
      find?_of_unique hw (beq_self_eq_true _) (fun y hy h => hu y hy (beq_iff_eq.mp h))
    have hexec : exec (.presenceWatchThreshold w.station) s = .next (s.offerEvict w).settle := by
      rw [exec_presenceWatchThreshold, execPresenceWatchThreshold, hf]
      exact congrArg _ (if_pos hel)
    refine ⟨fun hm hd hq => ⟨_, hexec, ?_⟩, fun h => ⟨_, hexec, ?_⟩⟩
    · have hdue : s.mayJudge = true ∧ w.queued = false ∧ s.evictionMs ≤ w.elapsed :=
        ⟨s.mayJudge_iff.mpr ⟨hm, hd⟩, hq, hel⟩
      have hs := (s.offerEvict w).settle_settlesTo
      rw [State.offerEvict_eq] at hs ⊢
      simp only [if_pos hdue] at hs ⊢
      exact hs
    · have hself : s.offerEvict w = s := by
        rw [State.offerEvict_eq]
        simp only [if_neg (not_due_of h)]
        rfl
      rw [hself]
      exact s.settle_settlesTo
  case notEvicted =>
    have hf : s.tu.presence.find? (fun x => x.station == w.station) = some w :=
      find?_of_unique hw (beq_self_eq_true _) (fun y hy h => hu y hy (beq_iff_eq.mp h))
    rw [exec_presenceWatchThreshold, execPresenceWatchThreshold, hf]
    exact congrArg _ (if_neg (Nat.not_le.mpr hlt))

/-! ## Founding -/

/-- The roster of a group of one (R61). -/
theorem foundedReplica_roster (own v : Station) : (foundedReplica own).roster[v] = if v = own
    then { state := .member, inc := 1, provider := none, providingFor := none }
    else { state := .absent, inc := 0, provider := none, providingFor := none } := by
  by_cases h : v = own
  · subst h
    rw [if_pos rfl]
    exact Vector.getElem_set_self ..
  · rw [if_neg h]
    refine (Vector.getElem_set_ne own.isLt v.isLt (fun hv => h (Fin.ext hv.symm))).trans ?_
    exact Vector.getElem_replicate ..

/-- R61, with R64. -/
theorem State.found_eq (s : State) :
    s.found = { s with
      replica := foundedReplica s.own
      sc := { s.sc with
        station := .member, ownInc := 1, catchUp := [], joinTimer := none, attemptNo := 0, readyRequeue := 0 }
      tu := { s.tu with
        verdicts := [], presenceTimer := some 0
        expiry := s.tu.expiry.map (fun w => { w with elapsed := 0, queued := false })
        presence := s.tu.presence.map (fun w => { w with elapsed := 0, queued := false }) }
      kp := if s.configField ConfigRecord.keepPeriod = 0 then { permit := .none, timer := none }
        else { permit := .early, timer := some 0 }
      nu := s.nu.arrive (.station .member .founded) } := by
  rw [State.found, State.enterMember_eq]
  rfl

/-- Settles O53: `State.found_eq`. -/
theorem joinWaitTimeoutFounds : Obligations.JoinWaitTimeoutFounds := by
  intro s n hst htimer hn hmem hlow
  have hexec : exec .joinWaitTimeout s = .next s.found.settle := by
    have htimed : timerReached s.sc.joinTimer s.joinWaitMs = true := by
      rw [htimer, timerReached_some, decide_eq_true_iff]
      exact hn
    rw [exec_joinWaitTimeout, execJoinWaitTimeout, if_pos ⟨hst, htimed⟩, if_neg (by simp [hmem, hlow])]
  have hs := s.found.settle_settlesTo
  refine ⟨_, hexec, ?_⟩
  generalize s.found.settle = t at hs
  rw [State.found_eq] at hs
  have hreplica : t.replica = foundedReplica s.own := hs.replica
  refine ⟨fun r => ?entries, fun v => ?roster, ?tsn, ?mismatch, hs.sc, hs.tu_presenceTimer, hs.tu_verdicts, hs.kp,
    ?notes, hs.requests, hs.config, hs.tm, hs.cause, hs.power, hs.gou_maps⟩
  case entries =>
    rw [hreplica]
    exact Replica.cleared_entry r
  case roster =>
    rw [hreplica]
    exact foundedReplica_roster s.own v
  case tsn => rw [hreplica]; rfl
  case mismatch => rw [hreplica]; rfl
  case notes => exact hs.notes (xs := [.station .member .founded]) rfl

end Sys2Proof.Machine
end

section
/-! The attempt start and the ways an attempt fails (R88, R92, R93, R98, R102 to R104). -/

namespace Sys2Proof.Machine

/-! ## Attempt start -/

theorem State.mayStart_iff (s : State) : s.mayStart = true ↔ s.listening = true ∧ s.lu.rx = .idle
    ∧ (s.lu.tx = .defer ∨ (s.lu.tx = .backoff ∧ s.lu.backoff = some 0 ∧ s.lu.backoffHeld = false)) := by
  simp [State.mayStart, and_assoc]

theorem exec_attemptStart_of_mayStart {s : State} (h : s.mayStart = true) :
    exec .attemptStart s = .next s.startAttempt.settle := by
  rw [exec_attemptStart, execAttemptStart, if_pos h]

/-- A check that fails leaves what decides whether an attempt may start. -/
theorem State.withdrawChecked_mayStart (s : State) (src : Source) : (s.withdrawChecked src).mayStart = s.mayStart := by
  rcases src with k | r | (⟨r, h, g⟩ | ⟨v, i⟩) | i | r | tag | _
  case surrender => rw [State.withdrawChecked, State.surrenderRemove_eq, State.withdrawAttempt_eq]; rfl
  case host =>
    rw [State.withdrawChecked]
    split
    · rw [State.completeRequest_found _ _ _ _ ‹_›]
      rfl
    · rfl
  all_goals rfl

theorem State.endVerdict_expire (s : State) (r : Resource) (h : Station) (g : Word16) :
    s.endVerdict (.expire r h g) = { s with tu := { s.tu with
      verdicts := s.tu.verdicts.filter (fun i => i.verdict != .expire r h g)
      expiry := s.tu.expiry.map (fun w =>
        if w.r = r ∧ w.holder = h ∧ w.gen = g then { w with queued := false } else w) } } := by
  have hif : ∀ w : ExpiryWatch, (w.on r h && w.gen == g) = true ↔ w.r = r ∧ w.holder = h ∧ w.gen = g := fun w => by
    simp [ExpiryWatch.on, and_assoc]
  simp only [State.endVerdict, hif]
  rfl

theorem State.endVerdict_evict (s : State) (v : Station) (i : Byte) :
    s.endVerdict (.evict v i) = { s with tu := { s.tu with
      verdicts := s.tu.verdicts.filter (fun x => x.verdict != .evict v i)
      presence := s.tu.presence.map (fun w =>
        if w.station = v ∧ w.inc = i then { w with queued := false } else w) } } := rfl

theorem State.surrenderRemove_form (s : State) (r : Resource) :
    s.surrenderRemove r = { s with
      tu := { s.tu with surrender := s.tu.surrender.filter (fun m => m.r != r) }
      lu := { s.lu with current := s.lu.current.map (fun a =>
        if a.source = .surrender r then { a with withdrawn := true } else a) } } := by
  rw [State.surrenderRemove_eq, State.withdrawAttempt_eq]
  simp only [beq_iff_eq]
  rfl

theorem State.withdrawChecked_host {s : State} {tag : Fin 16} {q : Request}
    (h : s.requests.find? (fun x => x.tag == tag) = some q) :
    s.withdrawChecked (.host tag) = { s with
      requests := s.requests.filter (fun x => x.tag != tag)
      nu := s.nu.arrive (.done tag (if q.kind = .withdraw then .notWaiting else .notHolder) q.r) } := by
  simp only [State.withdrawChecked, h]
  rw [State.completeRequest_found _ _ _ _ h]
  rcases q.kind with ⟨m, w⟩ | _ | _ <;> rfl

/-- The only candidate being the host request that is withdrawn, nothing is left to send. -/
theorem State.candidates_none_of_only_request {s : State} {q : Request} (hq : s.requests = [q])
    (hc : s.candidates = [q.candidateOf]) (n : NoteUnit) : ({ s with requests := [], nu := n } : State).candidates = [] := by
  have hs := s.candidates_length
  have ht := ({ s with requests := [], nu := n } : State).candidates_length
  have hoff : ({ s with requests := [], nu := n } : State).surrenderOffered = s.surrenderOffered := rfl
  rw [hc, hq] at hs
  rw [hoff] at ht
  rw [← List.length_eq_zero_iff]
  simp only [List.length_cons, List.length_nil] at hs ht
  omega

/-- The frame of R103 with the role of R55. -/
theorem State.frameOf_eq (s : State) (c : Candidate) :
    s.frameOf c = {
      role := (match s.sc.station with
        | .member => .member
        | .leaving _ _ => if s.replica.roster[s.own].state = .member then .member else .joiner
        | _ => .joiner),
      sender := s.own, inc := s.sc.ownInc, baseTsn := s.replica.tsn, body := c.body } := by
  rw [State.frameOf, State.ownRole]
  rcases s.sc.station with _ | _ | _ | _ | _ | ⟨_, _⟩ | _ <;> rfl

theorem State.beginAttempt_eq (s : State) (c : Candidate) :
    s.beginAttempt c = { s with
      requests := (match c.source with
        | .host tag => s.requests.map (fun q => if q.tag = tag then { q with state := .onAir } else q)
        | _ => s.requests),
      lu := { s.lu.cleared with
        tx := .send, backoff := none, rx := .receive, rxFrame := some (s.frameOf c),
        current := some { frame := s.frameOf c, source := c.source, count := c.count, withdrawn := false } } } := by
  rw [State.beginAttempt]
  rcases c.source with _ | _ | _ | _ | _ | _ | _ <;> rfl

/-- Settles O29: the first candidate by `State.attemptCheck_iff`; one that fails is withdrawn, and the start goes on. -/
theorem attemptStartSendsFirstCandidate : Obligations.AttemptStartSendsFirstCandidate := by
  intro s
  refine ⟨fun hstays => ?stays, fun hl hrx htx => ?_⟩
  case stays =>
    rw [exec_attemptStart, execAttemptStart, if_neg]
    rw [State.mayStart_iff]
    rintro ⟨hl, hrx, htx⟩
    rcases hstays with h | h | ⟨ht, h⟩
    · exact h hrx
    · rw [h] at hl
      exact nomatch hl
    · rcases htx with htx | ⟨-, hb, hh⟩
      · rw [ht] at htx
        exact nomatch htx
      · rcases h with h | h
        · rw [h] at hh
          exact nomatch hh
        · exact h hb
  have hstart : s.mayStart = true := s.mayStart_iff.mpr ⟨hl, hrx, htx⟩
  have hexec := exec_attemptStart_of_mayStart hstart
  refine ⟨fun c rest hc hsend => ?sends, fun hc => ?empty, fun c rest hc hsend => ?withdrawn,
    fun q hq hk hstate hholds hc => ?refused⟩
  case sends =>
    rw [State.startAttempt_sends s c rest hc ((s.attemptCheck_iff _).mpr hsend)] at hexec
    refine ⟨_, s.frameOf c, hexec, s.frameOf_eq c, ?_⟩
    rw [State.beginAttempt_eq]
    exact State.settle_settlesTo _
  case empty =>
    rw [State.startAttempt_none s hc] at hexec
    exact ⟨_, hexec, State.settle_settlesTo _⟩
  case withdrawn =>
    have hcheck : s.attemptCheck c.source = false := by
      rw [← Bool.not_eq_true, s.attemptCheck_iff]
      exact hsend
    have hu := exec_attemptStart_of_mayStart ((s.withdrawChecked_mayStart c.source).trans hstart)
    rw [← State.startAttempt_withdraws s c rest hc hcheck] at hu
    refine ⟨_, s.withdrawChecked c.source, hexec, hu, fun r h => ?_, fun r v g h => ?_, fun v i h => ?_, fun r h => ?_,
      fun tag q h hf => ?_, fun h => ?_⟩
    · rw [h]; rfl
    · rw [h]; exact s.endVerdict_expire r v g
    · rw [h]; exact s.endVerdict_evict v i
    · rw [h]; exact s.surrenderRemove_form r
    · rw [h]; exact State.withdrawChecked_host hf
    · rw [h]; rfl
  case refused =>
    have hfind : s.requests.find? (fun x => x.tag == q.tag) = some q := by rw [hq]; simp
    have hcheck : s.attemptCheck q.candidateOf.source = false := by
      simp [Request.candidateOf, State.attemptCheck, hfind, hk, hstate, hholds]
    have hfilter : s.requests.filter (fun x => x.tag != q.tag) = [] := by rw [hq]; simp
    rw [State.startAttempt_withdraws s _ [] hc hcheck, show q.candidateOf.source = .host q.tag from rfl,
      State.withdrawChecked_host hfind, hfilter, hk, if_neg (by simp),
      State.startAttempt_none _ (State.candidates_none_of_only_request hq hc _)] at hexec
    exact ⟨_, hexec, State.settle_settlesTo _⟩

end Sys2Proof.Machine
end

section
/-! The failed attempt: its withdrawal, its backoff and its abandonment at the retry limit (R92, R93, R98). -/

namespace Sys2Proof.Machine

/-! ## The event and the end of the attempt -/

/-- Each event that fails attempt `a` ends it by `State.attemptFailed`, after what the receiver has read. -/
theorem State.fails.exec {s : State} {a : Attempt} {c : Instr} {l : LineUnit} (h : s.fails a c l) :
    ∃ (l' : LineUnit) (jam : Bool), Machine.exec c s = .next ((s.setLu l').attemptFailed jam).settle
      ∧ l'.current = some a ∧ l = { l' with current := none, backoff := none, tx := if jam then .jam else .idle } := by
  obtain ⟨hcur, hcase⟩ := h
  rcases hcase with ⟨rfl, htx, rfl⟩ | ⟨readBack, htx, hevent, rfl⟩
  · refine ⟨s.lu.endReception, false, ?_, hcur, rfl⟩
    rw [exec_frameVetoed, execFrameVetoed]
    rcases htx with htx | htx <;> simp only [htx]
  · refine ⟨{ s.lu with rxRead := readBack, rxFailed := true, rxDominant := 16 }, true, ?_, hcur, rfl⟩
    rcases hevent with ⟨rfl, rfl, hmeets⟩ | ⟨rfl, hrx, hmeets⟩
    · have hopen : (Frame.windowOpen a.frame s.lu.rxRead || Frame.collides a.frame s.lu.rxRead) = true := by
        rw [Bool.or_eq_true, collides_iff]
        exact hmeets.imp_left (fun h => decide_eq_true h)
      rw [exec_collision, execCollision, htx, hcur]
      simp only [hopen, if_true]
      rfl
    · have hreceiving : s.receiving = true := by simp [State.receiving, htx]
      rw [exec_receptionVeto, execReceptionVeto, if_pos ⟨hreceiving, by rw [htx]; simp, hrx⟩,
        if_pos (s.meets_true readBack a hcur htx hmeets)]
      rfl

/-- A frame withdrawn meanwhile leaves without a report (R92). -/
theorem State.fails.exec_withdrawn {s : State} {a : Attempt} {c : Instr} {l : LineUnit} (h : s.fails a c l)
    (hw : a.withdrawn = true) : Machine.exec c s = .next (s.setLu l).settle := by
  obtain ⟨l', jam, hexec, hcur, rfl⟩ := h.exec
  rw [hexec, State.attemptFailed_withdrawn (s.setLu l') jam a hcur hw]
  rfl

/-- At the retry limit the frame is abandoned (R92, R98). -/
theorem State.fails.exec_abandons {s : State} {a : Attempt} {c : Instr} {l : LineUnit} (h : s.fails a c l)
    (hw : a.withdrawn = false) (hl : s.retryLimit ≤ a.count + 1) :
    Machine.exec c s = .next ((s.setLu l).abandon a.source).settle := by
  obtain ⟨l', jam, hexec, hcur, rfl⟩ := h.exec
  rw [hexec, State.attemptFailed_abandons (s.setLu l') jam a hcur hw hl]
  rfl

/-- Below it the attempt backs off, after the jam if there is one (R92, R93). -/
theorem State.fails.exec_backsOff {s : State} {a : Attempt} {c : Instr} {l : LineUnit} (h : s.fails a c l)
    (hw : a.withdrawn = false) (hl : a.count + 1 < s.retryLimit) :
    Machine.exec c s = .next ((s.setCount a.source (a.count + 1)).setLu { l with
      tx := if l.tx = .jam then .jam else .backoff
      backoff := some (64 * (s.own.val % 2 ^ min (a.count + 1) 5)) }).settle := by
  obtain ⟨l', jam, hexec, hcur, rfl⟩ := h.exec
  rw [hexec, State.attemptFailed_backsOff (s.setLu l') jam a hcur hw hl]
  simp only [State.setLu_lu, State.setCount_setLu]
  rcases jam with _ | _ <;> rfl

/-! ## Backoff -/

theorem Frame.windowBits_length (f : Frame) : (Frame.windowBits f).length = 24 := by
  simp [Frame.windowBits, byteBits]

theorem State.setCount_requests (s : State) (tag : Fin 16) (n : Nat) :
    (s.setCount (.host tag) n).requests = s.requests.map (fun q => if q.tag = tag then { q with count := n } else q) := rfl

/-- Settles O30: `State.fails.exec_backsOff`, and `State.setCount` by source. -/
theorem failedAttemptBacksOff : Obligations.FailedAttemptBacksOff := by
  intro s
  refine ⟨fun a c l hfail hw hl => ?fails, fun a hcur htx hlen hmeets => ?windowOver, fun htx => ?discarded⟩
  case fails =>
    have hs := State.settle_settlesTo ((s.setCount a.source (a.count + 1)).setLu { l with
      tx := if l.tx = .jam then .jam else .backoff
      backoff := some (64 * (s.own.val % 2 ^ min (a.count + 1) 5)) })
    refine ⟨_, hfail.exec_backsOff hw hl, hs, fun tag h => ?_, fun r h => ?_, fun k i before after h hk hi hbefore => ?_⟩
    · rw [hs.requests, h]
      rfl
    · rw [hs.holds, State.setLu_tu, h]
      exact List.map_map
    · rw [hs.sc, State.setLu_sc, h]
      refine Eq.trans ?_ (updateFirst_split (fun c => c.kind == k) (fun c => { c with count := a.count + 1 }) i after
        (by simp [hi]) before (fun j hj => by simpa using hbefore j hj))
      rw [← hk]
      rfl
  case windowOver =>
    have hopen : (Frame.windowOpen a.frame s.lu.rxRead || Frame.collides a.frame s.lu.rxRead) = false := by
      rw [Bool.or_eq_false_iff, ← Bool.not_eq_true (Frame.collides _ _), collides_iff, Frame.windowOpen,
        Frame.windowBits_length, decide_eq_false_iff_not]
      exact ⟨by omega, hmeets⟩
    rw [exec_collision, execCollision, htx, hcur]
    simp only [hopen, Bool.false_eq_true, if_false]
  case discarded =>
    refine ⟨_, ?_, State.settle_settlesTo _⟩
    rw [exec_frameVetoed, execFrameVetoed]
    rcases htx with htx | htx | htx <;> simp only [htx] <;> rfl

/-! ## Requests at the retry limit -/

theorem State.abandon_host {s : State} {tag : Fin 16} {q : Request}
    (h : s.requests.find? (fun x => x.tag == tag) = some q) :
    s.abandon (.host tag) = { s with
      requests := s.requests.filter (fun x => x.tag != tag)
      nu := s.nu.arrive (.done tag .notSent q.r)
      tu := { s.tu with surrender :=
        if s.kp.permit.isLapsed ∧ ¬ s.surrendering q.r ∧ q.kind = .release ∧ s.holdsOwn q.r then
          insertSurrender { r := q.r, mark := .hold, count := 0 } s.tu.surrender
        else if s.kp.permit.isLapsed ∧ ¬ s.surrendering q.r ∧ q.kind = .withdraw ∧ s.waitsOwn q.r then
          insertSurrender { r := q.r, mark := .wait, count := 0 } s.tu.surrender
        else s.tu.surrender } } := by
  have hsame : ∀ x : State, x.kp = s.kp → x.replica = s.replica → x.config = s.config → x.tu = s.tu →
      x.kp.permit.isLapsed = s.kp.permit.isLapsed ∧ x.holdsOwn q.r = s.holdsOwn q.r ∧ x.waitsOwn q.r = s.waitsOwn q.r
        ∧ x.surrendering q.r = s.surrendering q.r := by
    intro x hkp hrep hcfg htu
    simp only [State.holdsOwn, State.waitsOwn, State.entry, State.own, State.surrendering, hkp, hrep, hcfg, htu, and_self]
  simp only [State.abandon, h, State.completeRequest_found _ _ _ _ h]
  obtain ⟨hl, hho, hwa, hsu⟩ := hsame ((s.setRequests (s.requests.filter (fun q => q.tag != tag))).setNu
    (s.nu.arrive (.done tag .notSent q.r))) rfl rfl rfl rfl
  rcases hk : q.kind with ⟨m, w⟩ | _ | _
  · simp only [reduceCtorEq, false_and, and_false, if_false]
    rfl
  · simp only [hl, hho, State.surrenderAdd_eq, hsu, reduceCtorEq, false_and, and_false, if_false, true_and]
    by_cases h1 : s.kp.permit.isLapsed = true ∧ s.holdsOwn q.r = true
    · by_cases h2 : s.surrendering q.r = true
      · simp only [if_pos h1, h2, not_true_eq_false, false_and, and_false, if_true, if_false]
        rfl
      · simp only [h1.1, h1.2, h2, and_self, if_true]
        rfl
    · rw [if_neg h1, if_neg (fun hx => h1 ⟨hx.1, hx.2.2⟩)]
      rfl
  · simp only [hl, hwa, State.surrenderAdd_eq, hsu, reduceCtorEq, false_and, and_false, if_false, true_and]
    by_cases h1 : s.kp.permit.isLapsed = true ∧ s.waitsOwn q.r = true
    · by_cases h2 : s.surrendering q.r = true
      · simp only [if_pos h1, h2, not_true_eq_false, false_and, and_false, if_true, if_false]
        rfl
      · simp only [h1.1, h1.2, h2, and_self, if_true]
        rfl
    · rw [if_neg h1, if_neg (fun hx => h1 ⟨hx.1, hx.2.2⟩)]
      rfl

/-- Settles O31: withdrawn or abandoned, `State.abandon_host`. -/
theorem retryLimitAbandonsRequest : Obligations.RetryLimitAbandonsRequest := by
  intro s a c l hfail
  refine ⟨fun hw => ⟨_, hfail.exec_withdrawn hw, State.settle_settlesTo _⟩, fun tag q hw hl hsrc hq => ?_⟩
  have hexec := hfail.exec_abandons hw hl
  rw [hsrc, State.abandon_host (s := s.setLu l) hq] at hexec
  exact ⟨_, hexec, State.settle_settlesTo _⟩

/-! ## The other sources at the retry limit -/

theorem State.segmentAbandoned_eq {s : State} {x : Shadow} (h : s.sc.shadow = some x) :
    s.segmentAbandoned = { s with sc := { s.sc with shadow := some { x with
      count := 0
      requeue := if x.requeue < 3 then x.requeue + 1 else x.requeue
      givenUp := if x.requeue < 3 then x.givenUp else true } } } := by
  rw [State.segmentAbandoned, h]
  by_cases hr : x.requeue < 3
  · simp only [if_pos hr]
    rfl
  · simp only [if_neg hr]
    rfl

/-- What leaves the queue first makes no difference to what a filter that drops it leaves. -/
theorem filter_eraseP_of_dropped {α : Type} (p q : α → Bool) (h : ∀ x, q x = true → p x = false) (xs : List α) :
    (xs.eraseP q).filter p = xs.filter p := by
  induction xs with
  | nil => rfl
  | cons x xs ih =>
    by_cases hq : q x = true
    · rw [List.eraseP_cons_of_pos hq, List.filter_cons_of_neg (by simp [h x hq])]
    · rw [List.eraseP_cons_of_neg hq, List.filter_cons, List.filter_cons, ih]

/-- No attempt is left to withdraw. -/
theorem State.withdrawAttempt_none {s : State} (h : s.lu.current = none) (p : Source → Bool) : s.withdrawAttempt p = s := by
  rw [State.withdrawAttempt, h]

theorem State.readyAbandoned_requeues {s : State} (hst : s.sc.station = .synced) (hn : s.sc.readyRequeue < 3)
    (hcur : s.lu.current = none) :
    s.readyAbandoned = { s with sc := { s.sc with
      readyRequeue := s.sc.readyRequeue + 1
      control := s.sc.control.filter (fun k => !k.kind.isMembership) ++ [{ kind := .ready, count := 0 }] } } := by
  rw [State.readyAbandoned, if_pos hst]
  refine (if_pos (show s.sc.readyRequeue + 1 ≤ 3 by omega)).trans ?_
  rw [State.queueMembership_eq,
    State.withdrawAttempt_none (s := s.setSc { s.sc with readyRequeue := s.sc.readyRequeue + 1 }) hcur]
  rfl

/-- `State.offerExpire_eq` for a watch without a verdict. -/
theorem State.offerExpire_again {s : State} {w : ExpiryWatch} (hq : w.queued = false) {again : Bool}
    (ha : again = (s.mayJudge && decide (s.expiryMs ≤ w.elapsed))) :
    s.offerExpire w = { s with tu := { s.tu with
      expiry := if again then
        s.tu.expiry.map (fun x => if x.on w.r w.holder then { x with queued := true } else x) else s.tu.expiry
      verdicts := s.tu.verdicts
        ++ (if again then [{ verdict := .expire w.r w.holder w.gen, count := 0 }] else []) } } := by
  have hiff : (s.mayJudge = true ∧ w.queued = false ∧ s.expiryMs ≤ w.elapsed) ↔ again = true := by
    rw [ha, Bool.and_eq_true, decide_eq_true_iff, hq]
    simp
  rw [State.offerExpire_eq]
  simp only [hiff]
  rcases again with _ | _
  · simp only [Bool.false_eq_true, if_false, List.append_nil]
    rfl
  · rfl

theorem State.offerEvict_again {s : State} {w : PresenceWatch} (hq : w.queued = false) {again : Bool}
    (ha : again = (s.mayJudge && decide (s.evictionMs ≤ w.elapsed))) :
    s.offerEvict w = { s with tu := { s.tu with
      presence := if again then
        s.tu.presence.map (fun x => if x.station = w.station then { x with queued := true } else x) else s.tu.presence
      verdicts := s.tu.verdicts
        ++ (if again then [{ verdict := .evict w.station w.inc, count := 0 }] else []) } } := by
  have hiff : (s.mayJudge = true ∧ w.queued = false ∧ s.evictionMs ≤ w.elapsed) ↔ again = true := by
    rw [ha, Bool.and_eq_true, decide_eq_true_iff, hq]
    simp
  rw [State.offerEvict_eq]
  simp only [hiff]
  rcases again with _ | _
  · simp only [Bool.false_eq_true, if_false, List.append_nil]
    rfl
  · rfl

/-- A verdict state ended and then set again, for the watches that `p` chooses. -/
theorem map_requeue {α : Type} (p : α → Prop) [DecidablePred p] (f : Bool → α → α) (hp : ∀ b x, p (f b x) ↔ p x)
    (hf : ∀ b x, f b (f false x) = f b x) (again : Bool) (xs : List α) :
    (if again then (xs.map (fun x => if p x then f false x else x)).map (fun x => if p x then f true x else x)
      else xs.map (fun x => if p x then f false x else x)) = xs.map (fun x => if p x then f again x else x) := by
  rcases again with _ | _
  · rfl
  · rw [if_pos rfl, List.map_map]
    refine List.map_congr_left (fun x _ => ?_)
    by_cases hx : p x
    · simp only [Function.comp_apply, if_pos hx, (hp false x).mpr hx, if_true, hf]
    · simp only [Function.comp_apply, if_neg hx]

/-- An abandoned EXPIRE is queued again exactly while its watch stands at the threshold and may judge (R116). -/
theorem State.abandon_expire {s : State} {w : ExpiryWatch} (hw : w ∈ s.tu.expiry)
    (hu : ∀ w' ∈ s.tu.expiry, w'.r = w.r → w'.holder = w.holder → w' = w) {again : Bool}
    (ha : again = (s.sc.station == .member && s.tm.timebase != .degraded && decide (s.expiryMs ≤ w.elapsed))) :
    s.abandon (.verdict (.expire w.r w.holder w.gen)) = { s with tu := { s.tu with
      verdicts := s.tu.verdicts.filter (fun i => i.verdict != .expire w.r w.holder w.gen)
        ++ (if again then [{ verdict := .expire w.r w.holder w.gen, count := 0 }] else [])
      expiry := s.tu.expiry.map (fun x =>
        if x.r = w.r ∧ x.holder = w.holder then { x with queued := again } else x) } } := by
  have hmap : s.tu.expiry.map (fun x =>
        if x.r = w.r ∧ x.holder = w.holder ∧ x.gen = w.gen then { x with queued := false } else x)
      = s.tu.expiry.map (fun x => if x.r = w.r ∧ x.holder = w.holder then { x with queued := false } else x) := by
    refine List.map_congr_left (fun x hx => ?_)
    by_cases h : x.r = w.r ∧ x.holder = w.holder
    · rw [if_pos h, if_pos ⟨h.1, h.2, by rw [hu x hx h.1 h.2]⟩]
    · rw [if_neg h, if_neg (fun hx => h ⟨hx.1, hx.2.1⟩)]
  have hfind : (s.tu.expiry.map (fun x =>
        if x.r = w.r ∧ x.holder = w.holder then { x with queued := false } else x)).find?
        (fun x => x.on w.r w.holder) = some { w with queued := false } := by
    refine find?_of_unique (List.mem_map.mpr ⟨w, hw, by simp⟩) (by simp [ExpiryWatch.on]) (fun y hy hon => ?_)
    obtain ⟨x, hx, rfl⟩ := List.mem_map.mp hy
    by_cases hxw : x.r = w.r ∧ x.holder = w.holder
    · rw [if_pos hxw, hu x hx hxw.1 hxw.2]
    · rw [if_neg hxw] at hon
      exact absurd (by simpa [ExpiryWatch.on] using hon) hxw
  rw [State.abandon, State.endVerdict_expire, hmap]
  simp only [State.requeueVerdict, hfind]
  rw [State.offerExpire_again (again := again) rfl,
    ← map_requeue (fun x : ExpiryWatch => x.r = w.r ∧ x.holder = w.holder) (fun b x => { x with queued := b })
      (fun _ _ => Iff.rfl) (fun _ _ => rfl) again]
  · simp only [ExpiryWatch.on, Bool.and_eq_true, beq_iff_eq]
  · exact ha

/-- The same for an EVICT (R119). -/
theorem State.abandon_evict {s : State} {w : PresenceWatch} (hw : w ∈ s.tu.presence)
    (hu : ∀ w' ∈ s.tu.presence, w'.station = w.station → w' = w) {again : Bool}
    (ha : again = (s.sc.station == .member && s.tm.timebase != .degraded && decide (s.evictionMs ≤ w.elapsed))) :
    s.abandon (.verdict (.evict w.station w.inc)) = { s with tu := { s.tu with
      verdicts := s.tu.verdicts.filter (fun i => i.verdict != .evict w.station w.inc)
        ++ (if again then [{ verdict := .evict w.station w.inc, count := 0 }] else [])
      presence := s.tu.presence.map (fun x => if x.station = w.station then { x with queued := again } else x) } } := by
  have hmap : s.tu.presence.map (fun x =>
        if x.station = w.station ∧ x.inc = w.inc then { x with queued := false } else x)
      = s.tu.presence.map (fun x => if x.station = w.station then { x with queued := false } else x) := by
    refine List.map_congr_left (fun x hx => ?_)
    by_cases h : x.station = w.station
    · rw [if_pos h, if_pos ⟨h, by rw [hu x hx h]⟩]
    · rw [if_neg h, if_neg (fun hx => h hx.1)]
  have hfind : (s.tu.presence.map (fun x =>
        if x.station = w.station then { x with queued := false } else x)).find?
        (fun x => x.station == w.station) = some { w with queued := false } := by
    refine find?_of_unique (List.mem_map.mpr ⟨w, hw, by simp⟩) (beq_self_eq_true _) (fun y hy hon => ?_)
    obtain ⟨x, hx, rfl⟩ := List.mem_map.mp hy
    by_cases hxw : x.station = w.station
    · rw [if_pos hxw, hu x hx hxw]
    · rw [if_neg hxw] at hon
      exact absurd (beq_iff_eq.mp hon) hxw
  rw [State.abandon, State.endVerdict_evict, hmap]
  simp only [State.requeueVerdict, hfind]
  rw [State.offerEvict_again (again := again) rfl,
    ← map_requeue (fun x : PresenceWatch => x.station = w.station) (fun b x => { x with queued := b })
      (fun _ _ => Iff.rfl) (fun _ _ => rfl) again]
  exact ha

/-- The renewal state that `settle` gives a record which is idle or barred. -/
theorem State.withRenewal_of_not_candidate {t : State} {h : OwnHold} (hr : h.renewal = .idle ∨ h.renewal = .barred) :
    (t.withRenewal h).renewal = .idle ∨ (t.withRenewal h).renewal = .candidate 0
      ∨ (t.withRenewal h).renewal = .barred := by
  rcases hr with hr | hr
  · by_cases hd : t.renewAllowed h = true ∧ t.renewalMs ≤ h.elapsed
    · exact Or.inr (Or.inl (State.withRenewal_offers hr hd.1 hd.2))
    · simp only [State.withRenewal, hr, if_neg hd, true_or]
  · simp only [State.withRenewal, hr, or_true]

/-- Settles O32: `State.fails.exec_abandons` by source. -/
theorem retryLimitAbandonsOtherFrames : Obligations.RetryLimitAbandonsOtherFrames := by
  intro s a c l hfail hw hl
  have hexec := hfail.exec_abandons hw hl
  have hcur : l.current = none := by
    obtain ⟨-, -, -, -, rfl⟩ := hfail.exec
    rfl
  refine ⟨fun r h => ?renew, fun r h => ?surrender, fun h => ?presence, fun i x h hx => ?segment, fun v n h => ?refuse,
    fun h hst hn => ?ready, fun w hmem hu h => ?expire, fun w hmem hu h => ?evict⟩ <;> rw [h] at hexec
  case renew =>
    have hs := State.settle_settlesTo ((s.setLu l).abandon (.renew r))
    refine ⟨_, hexec, hs, fun h hmem hr => ?_⟩
    rw [hs.holds] at hmem
    obtain ⟨h', hmem', rfl⟩ := List.mem_map.mp hmem
    obtain ⟨o, ho, rfl⟩ := List.mem_map.mp hmem'
    refine State.withRenewal_of_not_candidate ?_
    by_cases hor : o.r = r
    · rw [if_pos hor]
      rcases hren : o.renewal with _ | n | _ <;> simp [hren]
    · rw [if_neg hor] at hr
      exact absurd hr hor
  case surrender => exact ⟨_, hexec, State.settle_settlesTo _⟩
  case presence => exact ⟨_, hexec, State.settle_settlesTo _⟩
  case segment =>
    rw [State.abandon, State.segmentAbandoned_eq (s := s.setLu l) hx] at hexec
    exact ⟨_, hexec, State.settle_settlesTo _⟩
  case refuse => exact ⟨_, hexec, State.settle_settlesTo _⟩
  case ready =>
    have hfilter := filter_eraseP_of_dropped (fun k : ControlItem => !k.kind.isMembership) (fun k => k.kind == .ready)
      (fun x hx => by rw [beq_iff_eq.mp hx]; rfl) s.sc.control
    rw [State.abandon, State.readyAbandoned_requeues (s := (s.setLu l).removeControl .ready) hst hn hcur] at hexec
    refine ⟨_, hexec, ?_⟩
    rw [← hfilter]
    exact State.settle_settlesTo _
  case expire =>
    rw [State.abandon_expire (s := s.setLu l) hmem hu rfl] at hexec
    exact ⟨_, _, hexec, rfl, State.settle_settlesTo _⟩
  case evict =>
    rw [State.abandon_evict (s := s.setLu l) hmem hu rfl] at hexec
    exact ⟨_, _, hexec, rfl, State.settle_settlesTo _⟩

end Sys2Proof.Machine
end

section
/-! What the receiver makes of a reception, and the faults that the line shows (R63, R79, R91, R94, R96, R99, R100). -/

namespace Sys2Proof.Machine

/-! ## Receptions -/

/-- The bits before an end mark are read only where the end mark closes the reception. -/
theorem endMark_suffix_of_bitsToEndMark (rs : List BitReading) : ∀ bits, bitsToEndMark rs = some bits → endMark <:+ rs := by
  fun_induction bitsToEndMark rs with
  | case1 rest ih | case2 rest ih =>
    intro bits h
    obtain ⟨more, hmore, -⟩ := Option.map_eq_some_iff.mp h
    exact (ih more hmore).trans (List.suffix_cons ..)
  | case3 => exact fun _ _ => List.suffix_refl _
  | case4 => exact fun _ h => nomatch h

/-- A frame is found good only with its end mark (R84, R95). -/
theorem endMarkRead_of_good {rs : List BitReading} {f : Frame} (h : judge rs = .good f) : endMarkRead rs = true := by
  rw [judge] at h
  split at h
  · exact nomatch h
  · split at h
    · rcases hb : bitsToEndMark (rs.drop 8) with _ | bits
      · rw [hb] at h
        exact nomatch h
      · exact List.isSuffixOf_iff_suffix.mpr ((endMark_suffix_of_bitsToEndMark _ bits hb).trans (List.drop_suffix 8 rs))
    · exact nomatch h

theorem longestDominant_of_collision {rs : List BitReading} (h : judge rs = .collision) :
    16 ≤ longestDominant rs 0 0 := by
  rw [judge] at h
  split at h
  · assumption
  · split at h
    · split at h <;> exact nomatch h
    · exact nomatch h

/-- The reception runs and this station does not meet another one (R82, R94). -/
theorem exec_receptionVeto_followed {s : State} {rs : List BitReading}
    (hmeets : ∀ a, s.lu.current = some a → s.lu.tx = .send → ¬ meetsAnother a.frame rs)
    (hrec : s.receiving = true) (hjam : s.lu.tx ≠ .jam) (hveto : s.lu.rx ≠ .veto) :
    exec (.receptionVeto rs) s = .next (s.reception rs).settle := by
  rw [exec_receptionVeto, execReceptionVeto, if_pos ⟨hrec, hjam, hveto⟩, s.meets_false rs hmeets]
  rfl

/-- A field that stands as it is told. -/
theorem LineUnit.setRxFailed_self {l : LineUnit} {b : Bool} (h : l.rxFailed = b) : { l with rxFailed := b } = l := by
  subst h
  rfl

/-- Settles O33: `State.reception` by its judgement. -/
theorem receiverFollowsReception : Obligations.ReceiverFollowsReception := by
  intro s rs hmeets
  refine ⟨fun hrec hjam hveto => ?_, fun h => ?_⟩
  · have hreceiving : s.receiving = true := by
      rcases hrec with h | h | h <;> simp [State.receiving, h]
    have hexec := exec_receptionVeto_followed hmeets hreceiving hjam hveto
    refine ⟨fun he hj ht hn => ?failed, fun he hj hf ht => ?timebase, fun f hj hf => ?good, fun hj htx => ?collision,
      fun he => ?running⟩
    case failed =>
      rw [s.reception_vetoed rs he (by rcases hj with h | h <;> simp [h]), s.vetoReception_unmuted rs (Or.inr hn),
        State.driveVeto, ht] at hexec
      exact ⟨_, hexec, State.settle_settlesTo _⟩
    case timebase =>
      rw [s.reception_vetoed rs he (Or.inr (Or.inr ⟨hj, hf⟩)), s.vetoReception_unmuted rs (Or.inl ht),
        State.driveVeto, ht, if_pos rfl, ← hf] at hexec
      exact ⟨_, hexec, State.settle_settlesTo _⟩
    case good =>
      rw [s.reception_good rs f (endMarkRead_of_good hj) hj hf] at hexec
      exact ⟨_, hexec, State.settle_settlesTo _⟩
    case collision =>
      rw [s.reception_collision rs hj htx, State.followFrame, decide_eq_true (longestDominant_of_collision hj),
        Bool.or_true] at hexec
      exact ⟨_, hexec, State.settle_settlesTo _⟩
    case running =>
      rw [s.reception_running rs he] at hexec
      exact ⟨_, hexec, State.settle_settlesTo _⟩
  · rw [exec_receptionVeto, execReceptionVeto, if_neg]
    rintro ⟨-, h1, h2⟩
    exact h.elim h1 h2

/-! ## Frames of other stations -/

/-- This station when it has accepted a frame of another one, before it acts on it: its reception is over, its veto count
is 0 and the sender has been heard (R97, R99, R118). -/
def State.heard (s : State) (f : Frame) : State :=
  { s with
    lu := { s.lu.cleared with vetoCount := 0 }
    tu := { s.tu with
      presence := if s.tu.presence.any (fun w => w.station == f.sender && w.inc == f.inc) then
        s.tu.presence.map (fun w => if w.station = f.sender then { w with elapsed := 0, queued := false } else w)
        else s.tu.presence
      verdicts := if s.tu.presence.any (fun w => w.station == f.sender && w.inc == f.inc) then
        s.tu.verdicts.filter (fun x => !Verdict.evicts f.sender x.verdict) else s.tu.verdicts } }

theorem State.hears.not_sending {s : State} {f : Frame} (h : s.hears f) : s.lu.sending = false := by
  obtain ⟨-, hsend, hjam, hveto, -⟩ := h
  exact (LineUnit.sending_false_iff _).mpr ⟨hsend, hjam, hveto⟩

theorem State.onLine_of_listening {s : State} (h : s.listening = true) : s.sc.station.onLine = true := by
  simp only [State.listening, Bool.and_eq_true] at h
  exact h.1.1

theorem State.hears.exec {s : State} {f : Frame} (h : s.hears f) :
    Machine.exec (.frameAccepted (.foreign f)) s = .next (s.acceptForeign f).settle := by
  have hsending := h.not_sending
  obtain ⟨hl, -, -, -, hfailed, hwf⟩ := h
  rw [exec_frameAccepted, execFrameAccepted]
  simp only [hl, hsending, hfailed, hwf, Bool.false_eq_true, not_false_eq_true, and_self, if_true]

/-- A frame of another station is handed on (R97). -/
theorem State.hears.exec_handOn {s : State} {f : Frame} (h : s.hears f) (hs : f.sender ≠ s.own) :
    Machine.exec (.frameAccepted (.foreign f)) s = .next ((s.heard f).handOn false f).settle := by
  rw [h.exec, State.acceptForeign]
  refine congrArg (fun x => Host.Outcome.next (State.settle x)) ((if_neg hs).trans ?_)
  exact congrArg (fun x => State.handOn x false f) (State.hearStation_eq _ _ _ h.not_sending)

/-! ## Faults -/

/-- A settled state differs in these blocks alone. -/
theorem SettlesTo.frame_blocks {e t : State} (h : SettlesTo e t) :
    t = { e with tu := t.tu, lu := t.lu, gou := t.gou, nu := t.nu } := by
  have hlu : t.lu = { e.lu with tx := t.lu.tx, current := t.lu.current } := congrArg State.lu h.frame
  have hgou : t.gou = { e.gou with active := t.gou.active } := congrArg State.gou h.frame
  rw [h.tu_but_holds, h.nu_but_settled, hlu, hgou]
  exact h.frame

theorem State.irqCondition_of_faulted {t : State} {c : FaultCause} (h : t.sc.station = .faulted c) :
    t.irqCondition = true := by
  simp [State.irqCondition, h, StationState.isFaulted]

/-- Entry to FAULTED out of a state that differs from `s` in what the fault clears, settled (R79). -/
theorem State.enterFaulted_enters {s x : State} (c : FaultCause) (hon : x.sc.station.onLine = true)
    (hx : ∃ sc tu requests replica lu, x = { s with
      sc := sc, tu := tu, requests := requests, replica := replica, lu := lu })
    (hreq : x.requests.map (fun q => Note.done q.tag .cancelled q.r)
      = s.requests.map (fun q => Note.done q.tag .cancelled q.r)) :
    EntersFaulted s (x.enterFaulted c).settle c := by
  obtain ⟨lu, he⟩ := x.enterFaulted_eq c hon
  have hs := (x.enterFaulted c).settle_settlesTo
  generalize (x.enterFaulted c).settle = t at hs
  rw [he, hreq] at hs
  obtain ⟨sc, tu, requests, replica, lu', rfl⟩ := hx
  have hst : t.sc.station = .faulted c := congrArg StationCtl.station hs.sc
  refine ⟨hst, ?dropped, ⟨hs.replica, ?tu⟩, hs.requests, hs.notes rfl, hs.kp,
    ⟨?irq, hs.lines_off (fun h => nomatch h), hs.gou_maps⟩, ?frame⟩
  case dropped => rw [hs.sc]; exact ⟨rfl, rfl, rfl, rfl, rfl, rfl⟩
  case tu =>
    have hholds := hs.holds
    rw [hs.tu_but_holds, hholds]
    rfl
  case irq =>
    rw [hs.irq]
    exact State.irqCondition_of_faulted hst
  case frame =>
    rw [hs.sc, hs.replica, hs.requests, hs.kp]
    exact hs.frame_blocks

/-- A station off the line sends nothing and receives nothing, once no attempt of its own is on the line (R106). -/
theorem State.enterFaulted_lu {x : State} (c : FaultCause) (hon : x.sc.station.onLine = true)
    (hs : x.lu.sending = false) :
    (x.enterFaulted c).lu = { x.lu.endReception with tx := .idle, current := none, backoff := none, integrating := false } := by
  obtain ⟨l, he⟩ := x.endMember_eq
  rw [State.enterFaulted, if_pos hon, he]
  obtain ⟨l2, h2⟩ := State.clearReplica_form { x with
    lu := { x.lu with current := l }, requests := [], kp := { permit := .none, timer := none },
    nu := x.nu.arriveAll (x.requests.map (fun q => .done q.tag .cancelled q.r)) }
  rw [h2]
  exact congrArg (fun l => l) (if_neg (by simpa [LineUnit.sending] using hs))

/-- What keeping an attempt count leaves: the requests' tags and resources, the station state and the line unit. -/
theorem State.setCount_form (s : State) (src : Source) (n : Nat) :
    ∃ sc tu requests, s.setCount src n = { s with sc := sc, tu := tu, requests := requests }
      ∧ sc.station = s.sc.station
      ∧ requests.map (fun q => Note.done q.tag .cancelled q.r) = s.requests.map (fun q => Note.done q.tag .cancelled q.r) := by
  rcases src with k | r | v | i | r | tag | _
  case segment =>
    rw [State.setCount]
    rcases s.sc.shadow with _ | x
    · exact ⟨_, _, _, rfl, rfl, rfl⟩
    · exact ⟨_, _, _, rfl, rfl, rfl⟩
  case host =>
    refine ⟨_, _, _, rfl, rfl, ?_⟩
    rw [List.map_map]
    refine List.map_congr_left (fun q _ => ?_)
    simp only [Function.comp_apply]
    split <;> rfl
  all_goals exact ⟨_, _, _, rfl, rfl, rfl⟩

/-- The 32nd veto in a row, with no attempt on the line or one that goes on, mutes the receiver (R99). -/
theorem State.vetoReception_mutes {s : State} {rs : List BitReading} (ht : s.lu.rxTimebase = false)
    (hn : 32 ≤ s.lu.vetoCount + 1) : s.vetoReception rs = (s.driveVeto rs).muteReceiver := by
  rw [State.vetoReception]
  refine if_pos ⟨?_, by rw [ht]; simp⟩
  simp only [State.driveVeto, State.setLu_lu, ht, Bool.false_eq_true, if_false]
  exact hn

/-- The state in which the receiver is muted: like the state before it but for what the fault clears. -/
theorem State.muted_before_fault {s : State} {rs : List BitReading}
    (hattempt : (s.lu.tx ≠ .send ∧ s.lu.tx ≠ .jam ∧ s.lu.tx ≠ .veto)
      ∨ (s.lu.tx = .send ∧ ∃ a, s.lu.current = some a ∧ (a.withdrawn = true ∨ a.count + 1 < s.retryLimit))) :
    ∃ sc tu requests lu, (s.driveVeto rs).muteReceiver
        = State.enterFaulted { s with sc := sc, tu := tu, requests := requests, lu := lu } .receiverMuted
      ∧ sc.station = s.sc.station ∧ lu.sending = false ∧ lu.muted = true ∧ lu.rx = .idle
      ∧ requests.map (fun q => Note.done q.tag .cancelled q.r)
        = s.requests.map (fun q => Note.done q.tag .cancelled q.r) := by
  rw [State.muteReceiver]
  rcases hattempt with ⟨h1, h2, h3⟩ | ⟨htx, a, hcur, ha⟩
  · have htx : (s.driveVeto rs).lu.tx = s.lu.tx := if_neg h1
    rw [if_neg (by rw [htx]; exact h3)]
    refine ⟨_, _, _, _, rfl, rfl, ?_, rfl, rfl, rfl⟩
    rw [LineUnit.sending_false_iff]
    exact ⟨htx ▸ h1, htx ▸ h2, htx ▸ h3⟩
  · have hveto : (s.driveVeto rs).lu.tx = .veto := if_pos htx
    have hcur' : (s.driveVeto rs).lu.current = some a := hcur
    rw [if_pos hveto]
    rcases hw : a.withdrawn with _ | _
    · have hl : a.count + 1 < (s.driveVeto rs).retryLimit := ha.resolve_left (by simp [hw])
      rw [State.attemptFailed_backsOff _ false a hcur' hw hl, State.setCount_setLu]
      obtain ⟨sc, tu, requests, hcount, hst, hreq⟩ := (s.driveVeto rs).setCount_form a.source (a.count + 1)
      rw [hcount]
      exact ⟨sc, tu, requests, _, rfl, hst, rfl, rfl, rfl, hreq⟩
    · rw [State.attemptFailed_withdrawn _ false a hcur' hw]
      exact ⟨_, _, _, _, rfl, rfl, rfl, rfl, rfl, rfl⟩

theorem State.onLine_not_faulted_listening {s : State} {c : FaultCause} (h : s.sc.station = .faulted c) :
    s.listening = false := by
  simp [State.listening, h, StationState.onLine]

/-- The facts that R60 records. -/
theorem State.foundingFacts_form (s : State) (f : Frame) :
    ∃ m l, s.foundingFacts f = { s with sc := { s.sc with memberHeard := m, lowerHeard := l } } := by
  rw [State.foundingFacts]
  split
  · split
    · exact ⟨_, _, rfl⟩
    · split
      · exact ⟨_, _, rfl⟩
      · exact ⟨_, _, rfl⟩
  · exact ⟨_, _, rfl⟩

/-- A joiner that listens to the group takes another station's frame (R60, R63, R65, R66). -/
theorem State.handOn_joiner {x : State} {f : Frame}
    (h : (x.sc.station = .joinWait ∧ x.sc.joinAccepted = true) ∨ x.sc.station = .snapshot) :
    x.handOn false f = x.joinerTakes f := by
  unfold State.handOn
  rcases h with ⟨h, hj⟩ | h
  · simp only [h, hj, if_true]
  · simp only [h]

theorem State.joinerTakes_refused {x : State} {f : Frame} {attempt : Fin 4} (hb : f.body = .joinRefuse x.own attempt)
    (ha : attempt.val = x.sc.attemptNo) : x.joinerTakes f = (x.foundingFacts f).enterFaulted .refusedConfig := by
  obtain ⟨m, l, hf⟩ := x.foundingFacts_form f
  rw [State.joinerTakes, hf, hb]
  exact if_pos ⟨rfl, ha⟩

/-- Settles O34: each way reaches `State.enterFaulted` out of a state that differs in what the fault clears. -/
theorem lineFaultsTheStation : Obligations.LineFaultsTheStation := by
  intro s
  refine ⟨fun f hh hsender => ?duplicate, fun f attempt hh hsender hst hbody hatt => ?refused,
    fun rs hlis hrx he hattempt hj ht hn => ?muted⟩
  case duplicate =>
    refine ⟨_, hh.exec, ?_⟩
    rw [State.acceptForeign, if_pos hsender]
    exact State.enterFaulted_enters .duplicate (State.onLine_of_listening hh.1) ⟨_, _, _, _, _, rfl⟩ rfl
  case refused =>
    refine ⟨_, hh.exec_handOn hsender, ?_⟩
    obtain ⟨m, l, hf⟩ := (s.heard f).foundingFacts_form f
    rw [State.handOn_joiner (x := s.heard f) hst, State.joinerTakes_refused (x := s.heard f) hbody hatt, hf]
    exact State.enterFaulted_enters .refusedConfig (State.onLine_of_listening hh.1) ⟨_, _, _, _, _, rfl⟩ rfl
  case muted =>
    have hexec : exec (.receptionVeto rs) s = .next (s.driveVeto rs).muteReceiver.settle := by
      have hmeets : ∀ a, s.lu.current = some a → s.lu.tx = .send → ¬ meetsAnother a.frame rs := by
        intro a hcur htx
        rcases hattempt with ⟨h, -⟩ | ⟨-, b, hb, hb', -⟩
        · exact absurd htx h
        · rw [hcur] at hb
          cases hb
          exact hb'
      have hjam : s.lu.tx ≠ .jam := by
        rcases hattempt with ⟨-, h, -⟩ | ⟨h, -⟩
        · exact h
        · rw [h]; simp
      rw [exec_receptionVeto_followed hmeets (by simp [State.receiving, hlis]) hjam hrx,
        s.reception_vetoed rs he (Or.inl hj), State.vetoReception_mutes ht hn]
    obtain ⟨sc, tu, requests, lu, hmute, hst, hsend, hmuted, hidle, hreq⟩ := State.muted_before_fault (s := s) (rs := rs)
      (hattempt.imp_right (fun ⟨htx, a, hcur, _, ha⟩ => ⟨htx, a, hcur, ha⟩))
    rw [hmute] at hexec
    have hon : sc.station.onLine = true := by
      rw [hst]
      exact State.onLine_of_listening hlis
    have hfault := State.enterFaulted_enters (s := s)
      (x := { s with sc := sc, tu := tu, requests := requests, lu := lu }) .receiverMuted hon ⟨_, _, _, _, _, rfl⟩ hreq
    have hlu := State.enterFaulted_lu (x := { s with sc := sc, tu := tu, requests := requests, lu := lu }) .receiverMuted
      hon hsend
    have hs := State.settle_settlesTo
      (State.enterFaulted { s with sc := sc, tu := tu, requests := requests, lu := lu } .receiverMuted)
    refine ⟨_, hexec, hfault, ?_, ?_, ?_⟩
    · rw [hs.lu_muted, hlu]
      exact hmuted
    · rw [hs.transmitter, hlu, State.onLine_not_faulted_listening hfault.station]
      rfl
    · rw [hs.lu_rx, hlu]
      rfl

end Sys2Proof.Machine
end

section
/-! The change from REFERENCE to DEGRADED (R105, R111, R120, R126, R132). -/

namespace Sys2Proof.Machine

/-! ## The lapses of R111 -/

/-- A record that lapses now (R111). -/
def State.lapsesNow (s : State) (h : OwnHold) : Bool :=
  s.sc.station == .member && !h.lapsed && decide (s.lapseMs ≤ h.elapsed)

/-- The records of `xs` have lapsed, in the order of the list (R111). -/
structure Lapses (s t : State) (xs : List OwnHold) : Prop where
  frame : t = { s with
    nu := s.nu.arriveAll (xs.map (fun h => .lost h.r .lapsed))
    tu := { s.tu with
      holds := s.tu.holds.map (fun h =>
        if xs.any (fun x => x.r == h.r) then { h with lapsed := true, running := false } else h)
      surrender := t.tu.surrender } }
  kept : ∀ r, s.surrendering r = true → t.surrendering r = true
  enters : ∀ h ∈ xs, s.releasePending h.r = false → t.surrendering h.r = true

theorem Lapses.refl (s : State) : Lapses s s [] := by
  refine ⟨?_, fun _ h => h, fun _ h => nomatch h⟩
  simp only [List.any_nil, Bool.false_eq_true, if_false, List.map_id', List.map_nil]
  rfl

theorem State.surrendering_lapseHold_of_mem (s : State) (r r' : Resource) (h : s.surrendering r' = true) :
    (s.lapseHold r).surrendering r' = true := by
  rw [State.surrendering_iff] at h ⊢
  obtain ⟨m, hm, hr⟩ := h
  refine ⟨m, ?_, hr⟩
  rw [State.lapseHold_eq]
  show m ∈ if _ then _ else _
  split
  · exact hm
  · exact (insertSurrender_mem ..).mpr (Or.inr hm)

theorem Lapses.cons {s t : State} {x : OwnHold} {xs : List OwnHold} (h : Lapses (s.lapseHold x.r) t xs) :
    Lapses s t (x :: xs) := by
  refine ⟨?_, fun r hr => h.kept r (s.surrendering_lapseHold_of_mem x.r r hr), fun y hy hp => ?_⟩
  · have hf := h.frame
    rw [State.lapseHold_eq] at hf
    refine hf.trans ?_
    have hholds : (s.tu.holds.map (fun h => if h.r = x.r then { h with lapsed := true, running := false } else h)).map
          (fun h => if xs.any (fun y => y.r == h.r) then { h with lapsed := true, running := false } else h)
        = s.tu.holds.map (fun h =>
          if (x :: xs).any (fun y => y.r == h.r) then { h with lapsed := true, running := false } else h) := by
      rw [List.map_map]
      refine List.map_congr_left (fun o _ => ?_)
      rw [Function.comp_apply, List.any_cons]
      by_cases hx : o.r = x.r
      · rw [if_pos hx, show (x.r == o.r) = true from beq_iff_eq.mpr hx.symm, Bool.true_or, if_pos rfl]
        split <;> rfl
      · rw [if_neg hx, show (x.r == o.r) = false from beq_eq_false_iff_ne.mpr (Ne.symm hx), Bool.false_or]
    rw [← hholds]
    rfl
  · rcases List.mem_cons.mp hy with rfl | hy
    · exact h.kept _ (s.surrendering_lapseHold y.r hp)
    · refine h.enters y hy ?_
      rw [State.lapseHold_eq]
      exact hp

/-- A pass over records lapses those that are due. -/
theorem State.lapse_foldl (xs : List OwnHold) : ∀ s : State,
    Lapses s (xs.foldl (fun s h =>
      if s.sc.station == .member && !h.lapsed && decide (s.lapseMs ≤ h.elapsed) then s.lapseHold h.r else s) s)
      (xs.filter s.lapsesNow) := by
  induction xs with
  | nil => exact Lapses.refl
  | cons x xs ih =>
    intro s
    have hstep : (if s.sc.station == .member && !x.lapsed && decide (s.lapseMs ≤ x.elapsed) then s.lapseHold x.r else s)
        = if s.lapsesNow x then s.lapseHold x.r else s := rfl
    rw [List.foldl_cons, hstep]
    by_cases h : s.lapsesNow x = true
    · rw [if_pos h, List.filter_cons_of_pos h]
      have hsame : s.lapsesNow = (s.lapseHold x.r).lapsesNow := by
        rw [State.lapseHold_eq]
        rfl
      rw [hsame]
      exact (ih _).cons
    · rw [if_neg h, List.filter_cons_of_neg h]
      exact ih s

theorem State.lapseOverdue_lapses (s : State) : Lapses s s.lapseOverdue (s.tu.holds.filter s.lapsesNow) :=
  State.lapse_foldl s.tu.holds s

/-! ## The change of the timebase state -/

/-- The state in which the Line Unit is told of the change: the record, the reception and the note first (R132). -/
def State.degrading (s : State) (receiving : Bool) : State :=
  { s with
    tm := { timebase := .degraded, goodCount := 0, recovered := false }
    nu := s.nu.arrive (.timebase .failed)
    lu := { s.lu with rx := if receiving = true ∧ s.listening = true ∧ s.lu.rx = .idle then .receive else s.lu.rx } }

theorem State.degrade_eq (s : State) (receiving : Bool) :
    s.degrade receiving = (s.degrading receiving).cutOff.withdrawVerdicts.lapseOverdue := by
  have hrx : (receiving && s.listening && s.lu.rx == .idle) = true
      ↔ receiving = true ∧ s.listening = true ∧ s.lu.rx = .idle := by
    simp [and_assoc]
  rw [State.degrade, State.receptionBegun]
  simp only [hrx]
  rfl

/-- A bad window in REFERENCE leaves it (R132). -/
theorem exec_window_degrades {s : State} (hrun : s.power.phase = .running) (href : s.tm.timebase = .reference)
    {edges : Nat} (hbad : ¬(15680 ≤ edges ∧ edges ≤ 16320)) (receiving : Bool) :
    exec (.measurementWindowEnd edges receiving) s
      = .next (s.degrading receiving).cutOff.withdrawVerdicts.lapseOverdue.settle := by
  have hg : goodWindow edges = false := by
    rw [← Bool.not_eq_true, goodWindow_iff]
    exact hbad
  rw [exec_window_of_running hrun, State.windowEnd, href, hg, ← State.degrade_eq]
  rfl

/-- A quiet transmitter's reception: where it stands it stays, marked if there is one (R105). -/
theorem LineUnit.failReception_marks {l : LineUnit} (hs : l.sending = false) :
    l.failReception.rx = l.rx ∧ l.failReception.vetoCount = l.vetoCount
    ∧ (l.rx ≠ .idle → l.failReception.rxFailed = true ∧ l.failReception.rxTimebase = true)
    ∧ (l.rx = .idle → l.failReception.rxFailed = l.rxFailed ∧ l.failReception.rxTimebase = l.rxTimebase) := by
  by_cases h : l.rx = .idle
  · rw [l.failReception_quiet hs h]
    exact ⟨rfl, rfl, fun hn => absurd h hn, fun _ => ⟨rfl, rfl⟩⟩
  · rw [l.failReception_receiving (Or.inr h)]
    exact ⟨if_neg h, rfl, fun _ => ⟨rfl, rfl⟩, fun hn => absurd hn h⟩

theorem LineUnit.failReception_sending (l : LineUnit) : l.failReception.sending = l.sending := by
  rw [LineUnit.failReception]
  split <;> rfl

/-- REFERENCE is left with no attempt of this station on the line: no verdict is in one either (R105, R120). -/
theorem State.cutOff_quiet {s : State} (hs : s.lu.sending = false) :
    s.cutOff.withdrawVerdicts = { s with
      lu := { s.lu.failReception with clock := .internal }
      tu := { s.tu with
        verdicts := []
        expiry := s.tu.expiry.map (fun w => { w with queued := false })
        presence := s.tu.presence.map (fun w => { w with queued := false }) } } := by
  obtain ⟨h1, h2, h3⟩ := (LineUnit.sending_false_iff _).mp hs
  have hidle : s.lu.tx = .idle ∨ s.lu.tx = .defer ∨ s.lu.tx = .backoff := by
    rcases h : s.lu.tx with _ | _ | _ | _ | _ | _ <;> simp_all
  have hquiet : (s.setLu { s.lu.failReception with clock := .internal }).lu.sending = false :=
    (s.lu.failReception_sending).trans hs
  rw [State.cutOff_idle _ hidle, State.withdrawVerdicts_off _ hquiet]
  rfl

/-- A mapped line whose hold has lapsed is inactive (R148). -/
theorem Lapses.line_off {s t : State} {xs : List OwnHold} (h : Lapses s t xs) {x : Fin 8} {m : LineMap}
    (hm : s.gou.maps[x] = some m) (hx : ∃ o ∈ xs, o.r = m.r) : t.lineCondition x = false := by
  obtain ⟨o, ho, hor⟩ := hx
  have hmaps : t.gou.maps[x] = some m := by
    rw [h.frame]
    exact hm
  by_cases hp : s.releasePending m.r = true
  · refine State.lineCondition_of_releasePending hmaps ?_
    rw [h.frame]
    exact hp
  · refine State.lineCondition_of_surrendering hmaps ?_
    rw [← hor]
    exact h.enters o ho (by rw [hor]; simpa using hp)

theorem SettlesTo.surrendering {e t : State} (h : SettlesTo e t) (r : Resource) : t.surrendering r = e.surrendering r := by
  rw [State.surrendering, State.surrendering, h.tu_surrender]

theorem SettlesTo.lineCondition {e t : State} (h : SettlesTo e t) (x : Fin 8) : t.lineCondition x = e.lineCondition x := by
  have hlapsed : ∀ r, t.lapsedMark r = e.lapsedMark r := fun r => by
    simp only [State.lapsedMark, h.holds]
    induction e.tu.holds with
    | nil => rfl
    | cons o os ih => simp [ih]
  simp only [State.lineCondition, State.driveCondition, State.holdsOwn, State.entry, State.own, State.surrendering,
    State.releasePending, hlapsed, h.sc, h.tu_surrender, h.requests, h.kp, h.replica, h.config, h.gou_maps]

/-- Settles O26: nothing is cut off, every verdict is withdrawn, and the lapses are `State.lapseOverdue_lapses`. -/
theorem referenceFailureDegrades : Obligations.ReferenceFailureDegrades := by
  intro s edges receiving rx hrun href hbad h1 h2 h3 hrx
  have hexec := exec_window_degrades hrun href hbad receiving
  have hquiet : (s.degrading receiving).lu.sending = false := (LineUnit.sending_false_iff _).mpr ⟨h1, h2, h3⟩
  rw [State.cutOff_quiet hquiet] at hexec
  refine ⟨_, _, hexec, rfl, ?_⟩
  have hrx' : (s.degrading receiving).lu.rx = rx := hrx.symm
  obtain ⟨hrxs, hveto, hmarked, hunmarked⟩ := LineUnit.failReception_marks hquiet
  rw [hrx'] at hrxs hmarked hunmarked
  have hlapses := State.lapseOverdue_lapses { s.degrading receiving with
    lu := { (s.degrading receiving).lu.failReception with clock := .internal }
    tu := { (s.degrading receiving).tu with
      verdicts := []
      expiry := (s.degrading receiving).tu.expiry.map (fun w => { w with queued := false })
      presence := (s.degrading receiving).tu.presence.map (fun w => { w with queued := false }) } }
  generalize State.lapseOverdue _ = e at hlapses
  have hs := e.settle_settlesTo
  generalize e.settle = t at hs
  have hframe := hlapses.frame
  refine ⟨?tm, ?notes, ?verdicts, ?expiry, ?presence, ?holds, fun h hmem hp => ?surrender, fun x m hm hx => ?lines, ?clock,
    ?rx, fun hr => ?marked, fun hr => ?unmarked, fun hr hd => ?drive, ?veto, ?frame⟩
  case tm => rw [hs.tm, hframe]; rfl
  case notes => exact hs.notes (n := s.nu) (by rw [hframe]; rfl)
  case verdicts => rw [hs.tu_verdicts, hframe]
  case expiry => rw [hs.tu_expiry, hframe]; rfl
  case presence => rw [hs.tu_presence, hframe]; rfl
  case holds => rw [hs.holds, hframe]; exact List.map_map
  case surrender =>
    rw [hs.surrendering]
    exact hlapses.enters h hmem hp
  case lines =>
    rw [hs.lines, State.lineLevels_getElem, hs.lineCondition]
    exact hlapses.line_off hm hx
  case clock => rw [hs.lu_clock, hframe]
  case rx => rw [hs.lu_rx, hframe]; exact hrxs
  case marked =>
    rw [hs.lu_rxFailed, hs.lu_rxTimebase, hframe]
    exact hmarked hr
  case unmarked =>
    rw [hs.lu_rxFailed, hs.lu_rxTimebase, hframe]
    exact hunmarked hr
  case drive =>
    have hrv : rx = .veto := by rw [hrx, hr]; simp
    have hpower : t.power = s.power := by rw [hs.power, hframe]; rfl
    have htrx : t.lu.rx = .veto := by rw [hs.lu_rx, hframe]; exact hrxs.trans hrv
    have hfailed : t.lu.rxFailed = true := by rw [hs.lu_rxFailed, hframe]; exact (hmarked (by rw [hrv]; simp)).1
    rw [State.lineDrive, hpower, hd]
    simp only [Bool.not_true, Bool.false_eq_true, if_false, htrx, hfailed, and_self, if_true]
  case veto => rw [hs.lu_vetoCount, hframe]; exact hveto
  case frame =>
    have htu : { t.tu with presenceTimer := s.tu.presenceTimer, presenceOffer := s.tu.presenceOffer } = t.tu := by
      have htimer : t.tu.presenceTimer = s.tu.presenceTimer := by rw [hs.tu_presenceTimer, hframe]; rfl
      have hoffer : t.tu.presenceOffer = s.tu.presenceOffer := by rw [hs.tu_presenceOffer, hframe]; rfl
      rw [← htimer, ← hoffer]
    have hgou : { s.gou with active := t.gou.active } = t.gou := by
      have hmaps : t.gou.maps = s.gou.maps := by rw [hs.gou_maps, hframe]; rfl
      exact congrArg (fun m => ({ maps := m, active := t.gou.active } : GrantOutputs)) hmaps.symm
    rw [htu, hgou, hs.tm]
    refine hs.frame_blocks.trans ?_
    rw [hframe]
    rfl

end Sys2Proof.Machine
end

section
/-! The end of a join attempt as one update (R62), and an attempt cut off by the failure of the timebase (R93, R105,
R132). -/

namespace Sys2Proof.Machine

/-! ## A failed join attempt -/

/-- A join attempt that is over, with its number counted on and its items emptied (R62). -/
def State.attemptOver (s : State) (loaded : Bool) (l : Option Attempt) : State :=
  { s with
    replica := if loaded then Replica.cleared else s.replica
    tu := { (if loaded then TimerUnit.afterReset else s.tu) with presenceTimer := none, presenceOffer := none }
    lu := { s.lu with current := l }
    sc := { s.sc with
      attemptNo := s.sc.attemptNo + 1, joinAccepted := false, memberHeard := false, lowerHeard := false, ownInc := 0,
      readyRequeue := 0, catchUp := [], staged := none, joinTimer := none, stallTimer := none,
      control := (if loaded then [] else s.sc.control).filter (fun c => !c.kind.isMembership),
      shadow := if loaded then none else s.sc.shadow } }

/-- R62, whatever its number. -/
theorem State.failedAttempt_eq (s : State) (loaded : Bool) :
    ∃ l, s.failedAttempt loaded = if s.sc.attemptNo + 1 < 4 then
        (((s.attemptOver loaded l).setSc { (s.attemptOver loaded l).sc with station := .joinWait }).queueMembership
          .join).lineJoinStart false
      else (s.attemptOver loaded l).enterFaulted .joinFailed := by
  rcases loaded with _ | _
  · obtain ⟨l1, h1⟩ := s.stopPresence_form
    obtain ⟨l2, h2⟩ := State.withdrawMembership_form { s with
      lu := { s.lu with current := l1 }, tu := { s.tu with presenceTimer := none, presenceOffer := none } }
    refine ⟨l2, ?_⟩
    rw [State.failedAttempt]
    simp only [Bool.false_eq_true, if_false, h1, h2]
    rfl
  · obtain ⟨l0, h0⟩ := s.clearReplica_form
    obtain ⟨l1, h1⟩ := State.stopPresence_form { s with
      lu := { s.lu with current := l0 }, replica := Replica.cleared, tu := TimerUnit.afterReset
      sc := { s.sc with control := [], shadow := none } }
    obtain ⟨l2, h2⟩ := State.withdrawMembership_form { s with
      lu := { s.lu with current := l1 }, replica := Replica.cleared
      tu := { TimerUnit.afterReset with presenceTimer := none, presenceOffer := none }
      sc := { s.sc with control := [], shadow := none } }
    refine ⟨l2, ?_⟩
    rw [State.failedAttempt]
    simp only [if_true, h0, h1, h2]
    rfl

/-- Below the fourth failure JOIN is queued anew (R62). -/
theorem State.failedAttempt_again (s : State) (loaded : Bool) (h : s.sc.attemptNo + 1 < 4) :
    ∃ l l', s.failedAttempt loaded = { s.attemptOver loaded l with
      sc := { (s.attemptOver loaded l).sc with
        station := .joinWait
        control := (if loaded then [] else s.sc.control).filter (fun c => !c.kind.isMembership)
          ++ [{ kind := .join, count := 0 }] }
      lu := { s.lu with vetoCount := 0, muted := false, current := l' } } := by
  obtain ⟨l, hl⟩ := s.failedAttempt_eq loaded
  obtain ⟨l', hl'⟩ := State.queueMembership_form
    ((s.attemptOver loaded l).setSc { (s.attemptOver loaded l).sc with station := .joinWait }) .join
  have hfilter : ((if loaded then [] else s.sc.control).filter (fun c => !c.kind.isMembership)).filter
      (fun c => !c.kind.isMembership) = (if loaded then [] else s.sc.control).filter (fun c => !c.kind.isMembership) := by
    simp
  refine ⟨l, l', ?_⟩
  rw [hl, if_pos h, hl']
  simp only [State.attemptOver, State.setSc, hfilter]
  rfl

/-- The fourth failure is a fault (R62). -/
theorem State.failedAttempt_last (s : State) (loaded : Bool) (h : 4 ≤ s.sc.attemptNo + 1) :
    ∃ l, s.failedAttempt loaded = (s.attemptOver loaded l).enterFaulted .joinFailed := by
  obtain ⟨l, hl⟩ := s.failedAttempt_eq loaded
  exact ⟨l, hl.trans (if_neg (Nat.not_lt.mpr h))⟩

/-! ## What an abandoned frame leaves of the reception -/

/-- The timebase and the bit clock stand, and so does the reception unless the station left the line or came to it. -/
structure KeepsReception (s t : State) : Prop where
  tm : t.tm = s.tm
  clock : t.lu.clock = s.lu.clock
  reception : t.sc.station.onLine = s.sc.station.onLine →
    t.lu.rx = s.lu.rx ∧ t.lu.rxFailed = s.lu.rxFailed ∧ t.lu.rxTimebase = s.lu.rxTimebase

theorem KeepsReception.refl (s : State) : KeepsReception s s := ⟨rfl, rfl, fun _ => ⟨rfl, rfl, rfl⟩⟩

/-- A fault takes the station off the line. -/
theorem KeepsReception.of_faulted {s x : State} (c : FaultCause) (hx : x.tm = s.tm) (hlu : x.lu.clock = s.lu.clock)
    (hst : x.sc.station = s.sc.station) (hon : s.sc.station.onLine = true) (hs : x.lu.sending = false) :
    KeepsReception s (x.enterFaulted c) := by
  rw [← hst] at hon
  have h := x.enterFaulted_lu (c := c) (hon := hon) hs
  obtain ⟨lu, he⟩ := x.enterFaulted_eq c hon
  refine ⟨by rw [he]; exact hx, by rw [h]; exact hlu, fun hl => ?_⟩
  rw [he, ← hst, hon] at hl
  exact nomatch hl

theorem KeepsReception.failedAttempt {s : State} (loaded : Bool) (hon : s.sc.station.onLine = true)
    (hs : s.lu.sending = false) : KeepsReception s (s.failedAttempt loaded) := by
  by_cases h : s.sc.attemptNo + 1 < 4
  · obtain ⟨l, l', he⟩ := s.failedAttempt_again loaded h
    rw [he]
    exact ⟨rfl, rfl, fun _ => ⟨rfl, rfl, rfl⟩⟩
  · obtain ⟨l, he⟩ := s.failedAttempt_last loaded (Nat.not_lt.mp h)
    rw [he]
    exact .of_faulted .joinFailed rfl rfl rfl hon hs

theorem KeepsReception.leavingEnd {s : State} (hs : s.lu.sending = false) : KeepsReception s s.leavingEnd := by
  unfold State.leavingEnd
  split
  · rename_i x hst
    obtain ⟨l, hl⟩ := s.clearReplica_form
    rw [hl]
    refine ⟨rfl, ?_, fun h => ?_⟩
    · have hoff : ∀ m : LineUnit, m.sending = false →
          (if m.sending then m else { m.endReception with tx := .idle, current := none }).clock = m.clock :=
        fun m hm => by rw [if_neg (by simp [hm])]; rfl
      exact hoff { s.lu with current := l, backoff := none, integrating := false } hs
    · rw [hst] at h
      exact nomatch h
  · rename_i x hst
    obtain ⟨l, hl⟩ := s.joinStart_eq
    have hon : (!s.sc.station.onLine && !s.lu.sending) = false := by rw [hst]; rfl
    rw [hl, hon]
    exact ⟨rfl, rfl, fun _ => ⟨rfl, rfl, rfl⟩⟩
  all_goals exact .refl s

theorem State.requeueVerdict_form (s : State) (v : Verdict) : ∃ tu, s.requeueVerdict v = { s with tu := tu } := by
  rcases v with ⟨r, h, g⟩ | ⟨v, i⟩ <;> rw [State.requeueVerdict] <;> split
  · rw [State.offerExpire_eq]; exact ⟨_, rfl⟩
  · exact ⟨_, rfl⟩
  · rw [State.offerEvict_eq]; exact ⟨_, rfl⟩
  · exact ⟨_, rfl⟩

theorem KeepsReception.readyAbandoned {s : State} (hs : s.lu.sending = false) : KeepsReception s s.readyAbandoned := by
  rw [State.readyAbandoned]
  split
  · rename_i hst
    dsimp only
    split
    · obtain ⟨l, hl⟩ := State.queueMembership_form (s.setSc { s.sc with readyRequeue := s.sc.readyRequeue + 1 }) .ready
      rw [hl]
      exact ⟨rfl, rfl, fun _ => ⟨rfl, rfl, rfl⟩⟩
    · have hon : (s.setSc { s.sc with readyRequeue := s.sc.readyRequeue + 1 }).sc.station.onLine = true := by
        show s.sc.station.onLine = true
        rw [hst]
        rfl
      obtain ⟨htm, hclock, hrec⟩ := KeepsReception.failedAttempt true hon hs
      exact ⟨htm, hclock, hrec⟩
  · exact .refl s

/-- An abandoned frame (R98), with no attempt on the line. -/
theorem KeepsReception.abandon {s : State} (src : Source) (hs : s.lu.sending = false) :
    KeepsReception s (s.abandon src) := by
  have same : ∀ {t : State}, t.tm = s.tm → t.lu = s.lu → KeepsReception s t :=
    fun htm hlu => ⟨htm, by rw [hlu], fun _ => by rw [hlu]; exact ⟨rfl, rfl, rfl⟩⟩
  rcases src with (_ | _ | _ | ⟨v, a⟩) | r | (⟨r, h, g⟩ | ⟨v, i⟩) | i | r | tag | _
  · rw [State.abandon]
    split
    · rename_i hst
      have hon : (s.removeControl .join).sc.station.onLine = true := by rw [hst]; rfl
      obtain ⟨htm, hclock, hrec⟩ := KeepsReception.failedAttempt (s := s.removeControl .join) false hon hs
      exact ⟨htm, hclock, hrec⟩
    · exact same rfl rfl
  · obtain ⟨htm, hclock, hrec⟩ := KeepsReception.readyAbandoned (s := s.removeControl .ready) hs
    exact ⟨htm, hclock, hrec⟩
  · obtain ⟨htm, hclock, hrec⟩ := KeepsReception.leavingEnd (s := s.removeControl .leave) hs
    exact ⟨htm, hclock, hrec⟩
  · exact same rfl rfl
  · exact same rfl rfl
  · rw [State.abandon, State.endVerdict_expire]
    obtain ⟨tu, htu⟩ := State.requeueVerdict_form _ (.expire r h g)
    rw [htu]
    exact same rfl rfl
  · rw [State.abandon, State.endVerdict_evict]
    obtain ⟨tu, htu⟩ := State.requeueVerdict_form _ (.evict v i)
    rw [htu]
    exact same rfl rfl
  · rw [State.abandon, State.segmentAbandoned]
    split <;> exact same rfl rfl
  · exact same rfl rfl
  · rcases hq : s.requests.find? (fun q => q.tag == tag) with _ | q
    · simp only [State.abandon, hq]
      exact .refl s
    · rw [State.abandon_host hq]
      exact same rfl rfl
  · exact same rfl rfl

theorem KeepsReception.attemptFailed (s : State) : KeepsReception s (s.attemptFailed false) := by
  rcases hcur : s.lu.current with _ | a
  · rw [State.attemptFailed_none s false hcur]
    exact .refl s
  · rcases hw : a.withdrawn with _ | _
    · by_cases hl : a.count + 1 < s.retryLimit
      · rw [State.attemptFailed_backsOff s false a hcur hw hl, State.setCount_setLu]
        obtain ⟨sc, tu, requests, hcount, hst, -⟩ := s.setCount_form a.source (a.count + 1)
        rw [hcount]
        exact ⟨rfl, rfl, fun _ => ⟨rfl, rfl, rfl⟩⟩
      · rw [State.attemptFailed_abandons s false a hcur hw (Nat.not_lt.mp hl)]
        obtain ⟨htm, hclock, hrec⟩ := KeepsReception.abandon
          (s := s.setLu { s.lu with current := none, backoff := none, tx := .idle }) a.source rfl
        exact ⟨htm, hclock, hrec⟩
    · rw [State.attemptFailed_withdrawn s false a hcur hw]
      exact ⟨rfl, rfl, fun _ => ⟨rfl, rfl, rfl⟩⟩

/-! ## The attempt cut off -/

/-- What follows the end of the Line Unit's part: verdicts, lapses, and what they settle to (R132). -/
theorem State.after_cutOff (y : State) : ∃ tu, SettlesTo { y with
    nu := y.nu.arriveAll ((y.tu.holds.filter y.lapsesNow).map (fun h => .lost h.r .lapsed)), tu := tu }
    y.withdrawVerdicts.lapseOverdue.settle := by
  have hframe := y.withdrawVerdicts.lapseOverdue_lapses.frame
  have hs := y.withdrawVerdicts.lapseOverdue.settle_settlesTo
  generalize y.withdrawVerdicts.lapseOverdue.settle = t at hs
  rw [hframe] at hs
  exact ⟨_, hs⟩

/-- A receiver that is to follow a frame stands in RECEIVE, whichever way it came there. -/
theorem receive_of_begun {c : Prop} [Decidable c] {x : RxState} (h : c → x = .idle) :
    (if (if c then RxState.receive else x) = .idle then RxState.receive else if c then RxState.receive else x)
      = if x = .idle then .receive else x := by
  by_cases hc : c
  · simp [hc, h hc]
  · simp [hc]

/-- The line unit of an own frame whose reception fails on account of the timebase (R105). -/
theorem State.degrading_fails {s : State} (receiving : Bool) (hs : s.lu.sending = true) :
    { (s.degrading receiving).lu.failReception with clock := .internal } = { s.lu with
      rx := if s.lu.rx = .idle then .receive else s.lu.rx, rxFailed := true, rxTimebase := true, backoffHeld := true
      clock := .internal } := by
  rw [LineUnit.failReception_receiving _ (Or.inl (show (s.degrading receiving).lu.sending = true from hs)),
    show (s.degrading receiving).lu.sending = true from hs]
  have hrx : (if (s.degrading receiving).lu.rx = .idle then RxState.receive else (s.degrading receiving).lu.rx)
      = if s.lu.rx = .idle then .receive else s.lu.rx := receive_of_begun (fun hc => hc.2.2)
  rw [hrx]
  rfl

/-- The state in which an own attempt is cut off. -/
def State.cutting (s : State) : State :=
  { s with
    tm := { timebase := .degraded, goodCount := 0, recovered := false }
    nu := s.nu.arrive (.timebase .failed)
    lu := { s.lu with
      rx := if s.lu.rx = .idle then .receive else s.lu.rx, rxFailed := true, rxTimebase := true, backoffHeld := true
      clock := .internal } }

theorem State.degrading_cutOff_attempt {s : State} (receiving : Bool) (h : s.lu.tx = .send ∨ s.lu.tx = .veto) :
    (s.degrading receiving).cutOff = s.cutting.attemptFailed false := by
  have hs : s.lu.sending = true := (LineUnit.sending_iff _).mpr (h.imp_right Or.inr)
  rw [State.cutOff_attempt _ (show (s.degrading receiving).lu.tx = .send ∨ (s.degrading receiving).lu.tx = .veto from h),
    State.degrading_fails receiving hs]
  rfl

theorem State.degrading_cutOff_jam {s : State} (receiving : Bool) (h : s.lu.tx = .jam) :
    (s.degrading receiving).cutOff = s.cutting.setLu { s.cutting.lu with
      tx := match s.lu.backoff with | some _ => .backoff | none => .idle } := by
  have hs : s.lu.sending = true := (LineUnit.sending_iff _).mpr (Or.inr (Or.inl h))
  have hlu := State.degrading_fails receiving hs
  rw [State.cutOff_jam _ (show (s.degrading receiving).lu.tx = .jam from h)]
  exact congrArg (fun l : LineUnit => (s.degrading receiving).setLu
    { l with tx := match s.lu.backoff with | some _ => .backoff | none => .idle }) hlu

/-- A transmitter that settles stands in IDLE or DEFER where it stood in one of them. -/
theorem SettlesTo.tx_idle {e t : State} (h : SettlesTo e t) (hi : e.lu.tx = .idle) : t.lu.tx = .idle ∨ t.lu.tx = .defer := by
  rw [h.transmitter, if_pos (Or.inl hi)]
  split
  · exact Or.inr rfl
  · exact Or.inl rfl

theorem SettlesTo.tx_same {e t : State} (h : SettlesTo e t) (h1 : e.lu.tx ≠ .idle) (h2 : e.lu.tx ≠ .defer) :
    t.lu.tx = e.lu.tx := by
  rw [h.transmitter, if_neg (fun h => h.elim h1 h2)]

theorem SettlesTo.current_none {e t : State} (h : SettlesTo e t) (hc : e.lu.current = none) : t.lu.current = none := by
  rw [h.attempt, hc]
  rfl

/-- A change that neither the choice nor the outcome reads. -/
theorem map_filter_map_of_same {α β : Type} {f : α → α} {p q : α → Bool} {g : α → β} (hp : ∀ x, p (f x) = q x)
    (hg : ∀ x, g (f x) = g x) (xs : List α) : ((xs.map f).filter p).map g = (xs.filter q).map g := by
  rw [List.filter_map, List.map_map, show p ∘ f = q from funext hp, show g ∘ f = g from funext hg]

/-- Which records lapse turns on no attempt count. -/
theorem State.setCount_lapses (s : State) (src : Source) (n : Nat) :
    (((s.setCount src n).tu.holds.filter (s.setCount src n).lapsesNow).map (fun h => Note.lost h.r .lapsed))
      = ((s.tu.holds.filter s.lapsesNow).map (fun h => Note.lost h.r .lapsed)) := by
  rcases src with k | r | v | i | r | tag | _
  case renew =>
    have hf : ∀ h : OwnHold, ∃ x, (if h.r = r then (match h.renewal with
        | .candidate _ => { h with renewal := .candidate n }
        | .idle | .barred => h) else h) = { h with renewal := x } := by
      intro h
      split
      · split <;> exact ⟨_, rfl⟩
      · exact ⟨_, rfl⟩
    refine map_filter_map_of_same (fun h => ?_) (fun h => ?_) _
    · obtain ⟨x, hx⟩ := hf h
      exact (congrArg s.lapsesNow hx).trans rfl
    · obtain ⟨x, hx⟩ := hf h
      exact (congrArg (fun h : OwnHold => Note.lost h.r .lapsed) hx).trans rfl
  case segment =>
    rw [State.setCount]
    split <;> rfl
  all_goals rfl

theorem SettlesTo.lu_backoffHeld {e t : State} (h : SettlesTo e t) : t.lu.backoffHeld = e.lu.backoffHeld := by
  rw [h.frame]

theorem State.setCount_nu (s : State) (src : Source) (n : Nat) : (s.setCount src n).nu = s.nu := by
  obtain ⟨sc, tu, requests, h, -⟩ := s.setCount_form src n
  rw [h]

/-- Settles O27: `State.cutting` with its attempt failed, and what follows of it by `State.after_cutOff`. -/
theorem referenceFailureCutsAttempt : Obligations.ReferenceFailureCutsAttempt := by
  intro s edges receiving lapses hrun href hbad htx hlapses
  have hexec := exec_window_degrades hrun href hbad receiving
  obtain ⟨y, hy, hkeeps⟩ : ∃ y, (s.degrading receiving).cutOff = y ∧ KeepsReception s.cutting y := by
    refine ⟨_, rfl, ?_⟩
    rcases or_assoc.mpr htx with h | h
    · rw [State.degrading_cutOff_attempt receiving h]
      exact .attemptFailed _
    · rw [State.degrading_cutOff_jam receiving h]
      exact ⟨rfl, rfl, fun _ => ⟨rfl, rfl, rfl⟩⟩
  rw [hy] at hexec
  obtain ⟨tu, hs⟩ := y.after_cutOff
  refine ⟨_, hexec, ?_⟩
  generalize y.withdrawVerdicts.lapseOverdue.settle = t at hs
  refine ⟨hs.tm.trans hkeeps.tm, hs.lu_clock.trans hkeeps.clock, fun hon => ?_, fun a hjam hcur => ?_, fun hjam => ?_⟩
  · rw [hs.sc] at hon
    obtain ⟨hrx, hfailed, htimebase⟩ := hkeeps.reception hon
    exact ⟨hs.lu_rxFailed.trans hfailed, hs.lu_rxTimebase.trans htimebase, hs.lu_rx.trans hrx⟩
  · have hcut : y = s.cutting.attemptFailed false := by
      rw [← hy]
      refine State.degrading_cutOff_attempt receiving ?_
      rcases htx with h | h | h
      · exact Or.inl h
      · exact Or.inr h
      · exact absurd h hjam
    refine ⟨fun hw hl => ?backsOff, fun tag q hw hl hsrc hq => ?abandoned, fun hw => ?withdrawn⟩
    case backsOff =>
      rw [State.attemptFailed_backsOff s.cutting false a hcur hw hl, State.setCount_setLu] at hcut
      subst hcut
      refine ⟨hs.tx_same (by simp [State.setLu]) (by simp [State.setLu]), hs.current_none rfl, hs.lu_backoff,
        hs.lu_backoffHeld, hs.lu_vetoCount, fun tag hsrc => ?_, ?_⟩
      · rw [hs.requests, hsrc]
        rfl
      · have hnotes : ((s.cutting.setCount a.source (a.count + 1)).nu.arriveAll
            (((s.cutting.setCount a.source (a.count + 1)).tu.holds.filter
              (s.cutting.setCount a.source (a.count + 1)).lapsesNow).map (fun h => .lost h.r .lapsed)))
            = s.nu.arriveAll (.timebase .failed :: lapses.map (fun h => .lost h.r .lapsed)) := by
          rw [State.setCount_lapses, State.setCount_nu, hlapses]
          rfl
        exact hs.notes hnotes
    case abandoned =>
      rw [State.attemptFailed_abandons s.cutting false a hcur hw hl, hsrc] at hcut
      replace hcut := hcut.trans (State.abandon_host
        (s := s.cutting.setLu { s.cutting.lu with current := none, backoff := none, tx := .idle }) hq)
      subst hcut
      refine ⟨hs.tx_idle rfl, hs.current_none rfl, hs.lu_backoff, hs.requests, ?_⟩
      rw [hlapses]
      exact hs.notes (n := s.nu) rfl
    case withdrawn =>
      rw [State.attemptFailed_withdrawn s.cutting false a hcur hw] at hcut
      subst hcut
      refine ⟨hs.tx_idle rfl, hs.current_none rfl, hs.lu_backoff, hs.requests, ?_⟩
      rw [hlapses]
      exact hs.notes (n := s.nu) rfl
  · rw [State.degrading_cutOff_jam receiving hjam] at hy
    subst hy
    refine ⟨hs.lu_backoff, hs.lu_vetoCount, hs.requests, fun hb => ?_, fun hb => ?_, ?_⟩
    · obtain ⟨n, hn⟩ := Option.ne_none_iff_exists'.mp hb
      rw [State.setLu, hn] at hs
      exact ⟨hs.tx_same (by simp) (by simp), hs.lu_backoffHeld⟩
    · rw [State.setLu, hb] at hs
      exact hs.tx_idle rfl
    · rw [hlapses]
      exact hs.notes (n := s.nu) rfl

end Sys2Proof.Machine
end

section
/-! Lawful entries: what grants, renewals, removals and promotion leave of R1, R2 and R10 in one entry. -/

namespace Sys2Proof

/-- Mode and holders agree (R1), the waiters aside. -/
def Entry.modeFits (e : Entry) : Prop :=
  match e.mode with
  | .free => e.holders = []
  | .exclusive => e.holders.length = 1
  | .shared => 1 ≤ e.holders.length ∧ e.holders.length ≤ 4

/-- An entry lawful but for its head waiters `ws`, which promotion has yet to look at (R1, R2). -/
structure Entry.Promotable (e : Entry) (ws : List Waiter) : Prop where
  mode : e.modeFits
  ascending : e.holders.Pairwise (fun a b => a.station < b.station)
  bound : ws.length ≤ 6
  nodup : (ws.map Waiter.station).Nodup
  apart : ∀ h ∈ e.holders, ∀ w ∈ ws, w.station ≠ h.station

/-- R1 and R2 in one entry. -/
theorem Entry.consistent_iff (e : Entry) :
    e.consistent = true ↔ e.Promotable e.waiters ∧ (e.mode = .free → e.waiters = []) := by
  have hwaits : (e.holders.all (fun h => !e.waits h.station)) = true
      ↔ ∀ h ∈ e.holders, ∀ w ∈ e.waiters, w.station ≠ h.station := by
    simp [Entry.waits]
  simp only [Entry.consistent, Bool.and_eq_true, decide_eq_true_eq, hwaits]
  constructor
  · rintro ⟨⟨⟨⟨hm, ha⟩, hb⟩, hn⟩, hap⟩
    refine ⟨⟨?_, ha, hb, hn, hap⟩, fun hf => ?_⟩
    · rcases h : e.mode with _ | _ | _ <;>
        simp only [h, Bool.and_eq_true, List.isEmpty_iff, beq_iff_eq, decide_eq_true_eq] at hm <;>
        simp only [Entry.modeFits, h]
      · exact hm.1
      · exact hm
      · exact hm
    · simp only [hf, Bool.and_eq_true, List.isEmpty_iff] at hm
      exact hm.2
  · rintro ⟨⟨hm, ha, hb, hn, hap⟩, hf⟩
    refine ⟨⟨⟨⟨?_, ha⟩, hb⟩, hn⟩, hap⟩
    rcases h : e.mode with _ | _ | _ <;> simp only [Entry.modeFits, h] at hm <;>
      simp only [Bool.and_eq_true, List.isEmpty_iff, beq_iff_eq, decide_eq_true_eq]
    · exact ⟨hm, hf h⟩
    · exact hm
    · exact hm

theorem Entry.Promotable.of_consistent {e : Entry} (h : e.consistent = true) : e.Promotable e.waiters :=
  (e.consistent_iff.mp h).1

/-- Where mode and holders agree, an entry without holders is FREE, and it alone. -/
theorem Entry.modeFits.free_iff {e : Entry} (h : e.modeFits) : e.mode = .free ↔ e.holders = [] := by
  rcases hm : e.mode with _ | _ | _ <;> simp only [Entry.modeFits, hm] at h
  · simp [h]
  · simp only [reduceCtorEq, false_iff]
    intro hn
    simp [hn] at h
  · simp only [reduceCtorEq, false_iff]
    intro hn
    simp [hn] at h

/-- A FREE entry admits any waiter (R10). -/
theorem Entry.admits_of_free {e : Entry} (h : e.modeFits) (hf : e.mode = .free) (m : LeaseMode) : e.admits m = true := by
  have hn := h.free_iff.mp hf
  rcases m with _ | _ <;> simp [Entry.admits, hn, hf, Config.holderLimit]

/-- An entry that promotion leaves settled is consistent. -/
theorem Entry.Promotable.consistent {e : Entry} (h : e.Promotable e.waiters) (hs : e.settled = true) :
    e.consistent = true := by
  refine e.consistent_iff.mpr ⟨h, fun hf => ?_⟩
  rcases hw : e.waiters with _ | ⟨w, ws⟩
  · rfl
  · rw [Entry.settled, hw] at hs
    simp [Entry.admits_of_free h.mode hf] at hs

/-! ## A grant -/

/-- The mode agrees after a grant to a station that the entry admits. -/
theorem Entry.modeFits.grant {e : Entry} (h : e.modeFits) (v : Station) {m : LeaseMode} (ha : e.admits m = true) :
    (e.grant v m).modeFits := by
  rcases m with _ | _
  · simp only [Entry.admits, Bool.and_eq_true, bne_iff_ne, decide_eq_true_eq] at ha
    have hroom : e.holders.length < 4 := ha.2
    have hlen := e.grant_holders_length v .shared
    rcases hm : e.mode with _ | _ | _
    · simp only [Entry.modeFits, hm] at h
      simp only [h, List.length_nil] at hlen
      simp [Entry.modeFits, Entry.grant, hm, LeaseMode.toEntryMode, insertSlot_length, h]
    · simp only [Entry.modeFits, Entry.grant, hm, insertSlot_length, reduceCtorEq, if_false]
      omega
    · exact absurd hm ha.1
  · simp only [Entry.admits, List.isEmpty_iff] at ha
    have hf := h.free_iff.mpr ha
    simp [Entry.modeFits, Entry.grant, hf, LeaseMode.toEntryMode, insertSlot_length, ha]

theorem Entry.Promotable.grant {e : Entry} {w : Waiter} {ws : List Waiter} (h : e.Promotable (w :: ws))
    (ha : e.admits w.mode = true) : ({ e.grant w.station w.mode with waiters := ws } : Entry).Promotable ws where
  mode := h.mode.grant w.station ha
  ascending := insertSlot_ascending _ _ h.ascending (fun y hy hs => h.apart y hy w List.mem_cons_self hs.symm)
  bound := Nat.le_of_succ_le h.bound
  nodup := (List.nodup_cons.mp h.nodup).2
  apart := by
    intro y hy x hx
    rcases (insertSlot_mem _ _ _).mp hy with rfl | hy
    · intro hs
      have hs' : x.station = w.station := hs
      exact (List.nodup_cons.mp h.nodup).1 (hs' ▸ List.mem_map_of_mem hx)
    · exact h.apart y hy x (List.mem_cons_of_mem _ hx)

/-! ## Promotion -/

/-- Promotion leaves a lawful entry (R1, R2, R10). -/
theorem promoteFrom_lawful (ws : List Waiter) : ∀ e : Entry, e.Promotable ws →
    (promoteFrom ws e).1.Promotable (promoteFrom ws e).1.waiters ∧ (promoteFrom ws e).1.settled = true := by
  induction ws with
  | nil => exact fun e h => ⟨⟨h.mode, h.ascending, h.bound, h.nodup, h.apart⟩, rfl⟩
  | cons w ws ih =>
    intro e h
    rcases ha : e.admits w.mode with _ | _
    · rw [promoteFrom_stops w ws e ha]
      refine ⟨⟨h.mode, h.ascending, h.bound, h.nodup, h.apart⟩, ?_⟩
      have hsame : ({ e with waiters := w :: ws } : Entry).admits w.mode = e.admits w.mode := rfl
      simp only [Entry.settled, hsame, ha, Bool.not_false]
    · rw [promoteFrom_grants w ws e ha]
      exact ih _ (h.grant ha)

/-- The grants go to the head waiters, in queue order (R10). -/
theorem promoteFrom_grantees (ws : List Waiter) : ∀ e : Entry,
    (promoteFrom ws e).2.map (fun g => (⟨g.station, g.mode⟩ : Waiter)) <+: ws := by
  induction ws with
  | nil => exact fun _ => List.prefix_refl _
  | cons w ws ih =>
    intro e
    rcases ha : e.admits w.mode with _ | _
    · rw [promoteFrom_stops w ws e ha]
      exact List.nil_prefix
    · rw [promoteFrom_grants w ws e ha, List.map_cons]
      exact List.cons_prefix_cons.mpr ⟨rfl, ih _⟩

theorem promoteFrom_keeps_slots (ws : List Waiter) : ∀ (e : Entry) (x : Slot), x ∈ e.holders →
    x ∈ (promoteFrom ws e).1.holders := by
  induction ws with
  | nil => exact fun _ _ h => h
  | cons w ws ih =>
    intro e x h
    rcases ha : e.admits w.mode with _ | _
    · rw [promoteFrom_stops w ws e ha]
      exact h
    · rw [promoteFrom_grants w ws e ha]
      exact ih _ x ((insertSlot_mem _ _ _).mpr (Or.inr h))

/-- Each grant's slot stands with the generation it took (R11). -/
theorem promoteFrom_slots (ws : List Waiter) : ∀ (e : Entry), ∀ g ∈ (promoteFrom ws e).2,
    (⟨g.station, g.gen⟩ : Slot) ∈ (promoteFrom ws e).1.holders := by
  induction ws with
  | nil => exact fun _ _ h => nomatch h
  | cons w ws ih =>
    intro e g hg
    rcases ha : e.admits w.mode with _ | _
    · rw [promoteFrom_stops w ws e ha] at hg
      exact nomatch hg
    · rw [promoteFrom_grants w ws e ha] at hg ⊢
      rcases List.mem_cons.mp hg with rfl | hg
      · exact promoteFrom_keeps_slots ws _ _ ((insertSlot_mem _ _ _).mpr (Or.inl rfl))
      · exact ih _ g hg

theorem Entry.holdsAt_iff (e : Entry) (v : Station) (g : Word16) : e.holdsAt v g = true ↔ (⟨v, g⟩ : Slot) ∈ e.holders := by
  simp only [Entry.holdsAt, List.any_eq_true, Bool.and_eq_true, beq_iff_eq]
  exact ⟨fun ⟨x, hx, hv, hg⟩ => by rw [← hv, ← hg]; exact hx, fun h => ⟨_, h, rfl, rfl⟩⟩

/-! ## Removals -/

theorem Entry.modeFits.dropHolder {e : Entry} (h : e.modeFits) (v : Station) : (e.dropHolder v).modeFits := by
  have hle := List.length_filter_le (fun h : Slot => h.station != v) e.holders
  by_cases hn : e.holders.filter (fun h => h.station != v) = []
  · simp [Entry.modeFits, Entry.dropHolder, hn]
  · have hpos := List.length_pos_iff.mpr hn
    have hmode : (e.dropHolder v).mode = e.mode := by
      simp only [Entry.dropHolder]
      rw [if_neg (by simpa [List.isEmpty_iff] using hn)]
    have hholders : (e.dropHolder v).holders = e.holders.filter (fun h => h.station != v) := rfl
    simp only [Entry.modeFits, hmode, hholders]
    rcases hm : e.mode with _ | _ | _ <;> simp only [Entry.modeFits, hm] at h ⊢
    · rw [h] at hn
      exact absurd rfl hn
    · omega
    · omega

theorem Entry.Promotable.dropHolder {e : Entry} {ws : List Waiter} (h : e.Promotable ws) (v : Station) :
    (e.dropHolder v).Promotable ws where
  mode := h.mode.dropHolder v
  ascending := h.ascending.filter _
  bound := h.bound
  nodup := h.nodup
  apart := fun y hy => h.apart y ((List.mem_filter.mp hy).1)

theorem Entry.Promotable.dropWaiter {e : Entry} (h : e.Promotable e.waiters) (v : Station) :
    (e.dropWaiter v).Promotable (e.dropWaiter v).waiters where
  mode := h.mode
  ascending := h.ascending
  bound := Nat.le_trans (List.length_filter_le _ _) h.bound
  nodup := (List.filter_sublist.map _).nodup h.nodup
  apart := fun y hy w hw => h.apart y hy w ((List.mem_filter.mp hw).1)

/-- R1, R2 and R10 in one entry. -/
def Entry.lawful (e : Entry) : Prop := e.consistent = true ∧ e.settled = true

/-- Promotion of an entry without one holder or waiter. -/
theorem Entry.promote_lawful {e : Entry} (h : e.Promotable e.waiters) : e.promote.1.lawful := by
  obtain ⟨hp, hs⟩ := promoteFrom_lawful e.waiters e h
  exact ⟨hp.consistent hs, hs⟩

theorem Entry.dropHolder_promote_lawful {e : Entry} (h : e.consistent = true) (v : Station) :
    (e.dropHolder v).promote.1.lawful := Entry.promote_lawful ((Entry.Promotable.of_consistent h).dropHolder v)

theorem Entry.dropWaiter_promote_lawful {e : Entry} (h : e.consistent = true) (v : Station) :
    (e.dropWaiter v).promote.1.lawful := Entry.promote_lawful ((Entry.Promotable.of_consistent h).dropWaiter v)

/-- A grantee waited, in the mode granted. -/
theorem Entry.promote_grantee {e : Entry} {g : Grant} (h : g ∈ e.promote.2) :
    ∃ w ∈ e.waiters, w.station = g.station ∧ w.mode = g.mode :=
  ⟨⟨g.station, g.mode⟩, (promoteFrom_grantees e.waiters e).subset (List.mem_map_of_mem h), rfl, rfl⟩

theorem Entry.promote_slot {e : Entry} {g : Grant} (h : g ∈ e.promote.2) :
    e.promote.1.holdsAt g.station g.gen = true := (e.promote.1.holdsAt_iff _ _).mpr (promoteFrom_slots e.waiters e g h)

namespace Machine

/-- Settles O56: promotion of what `dropHolder` and `dropWaiter` leave. -/
theorem promotionSettlesEntry : Obligations.PromotionSettlesEntry := by
  intro e v h x hx
  have hlaw : x.1.lawful := by
    rcases hx with rfl | rfl
    · exact Entry.dropHolder_promote_lawful h v
    · exact Entry.dropWaiter_promote_lawful h v
  refine ⟨hlaw.1, hlaw.2, ?_, fun g hg => ?_⟩
  · rcases hx with rfl | rfl
    · exact promoteFrom_gen _ _
    · exact promoteFrom_gen _ _
  · rcases hx with rfl | rfl
    · exact ⟨Entry.promote_slot hg, Entry.promote_grantee (e := e.dropHolder v) hg⟩
    · obtain ⟨w, hw, hs⟩ := Entry.promote_grantee (e := e.dropWaiter v) hg
      exact ⟨Entry.promote_slot hg, w, (List.mem_filter.mp hw).1, hs⟩

end Machine
end Sys2Proof
end

section
/-! The acceptance of own and foreign frames up to their hand-over (R91, R97, R98), and the frames that end there (R59,
R70, R117, R118). -/

namespace Sys2Proof.Machine

/-! ## The hand-over -/

/-- This station's frame has been accepted and has left its source, and its presence timer has restarted (R98, R117). -/
def State.ownLeft (s : State) (a : Attempt) : State :=
  (({ s with lu := s.lineAfterOwn } : State).ownFrameLeaves a).restartPresence

theorem State.sent.exec {s : State} {a : Attempt} (h : s.sent a) :
    Machine.exec (.frameAccepted .own) s = .next ((s.ownLeft a).handOn true a.frame).settle := by
  obtain ⟨hcur, htx, hfailed⟩ := h
  rw [exec_frameAccepted]
  unfold execFrameAccepted
  simp only [hcur, htx, hfailed, Bool.false_eq_true, not_false_eq_true, and_self, if_true]
  rfl

/-- While the replica is live a state frame is applied, and no other frame does anything (R6, R75). -/
theorem State.handOn_live {x : State} (h : x.sc.station.live = true) (own : Bool) (f : Frame) :
    x.handOn own f = if f.body.isState then x.applyLive own f else x := by
  unfold State.handOn
  rcases hs : x.sc.station with _ | _ | _ | _ | _ | ⟨i, _ | _⟩ | c <;> rw [hs] at h
  all_goals exact nomatch h

theorem State.handOn_live_other {x : State} (h : x.sc.station.live = true) {own : Bool} {f : Frame}
    (hf : f.body.isState = false) : x.handOn own f = x := by
  rw [State.handOn_live h, hf]
  rfl

theorem State.handOn_live_state {x : State} (h : x.sc.station.live = true) {own : Bool} {f : Frame}
    (hf : f.body.isState = true) : x.handOn own f = x.applyLive own f := by
  rw [State.handOn_live h, hf]
  rfl

/-! ## A PRESENCE of another station -/

theorem filter_evicts_not (v : Station) (xs : List VerdictItem) :
    xs.filter (fun x => !Verdict.evicts v x.verdict)
      = xs.filter (fun x => match x.verdict with | .evict u _ => u != v | .expire _ _ _ => true) := by
  refine List.filter_congr (fun x _ => ?_)
  rcases x.verdict with ⟨r, h, g⟩ | ⟨u, i⟩ <;> rfl

/-- Settles O36: a PRESENCE is heard, which is all. -/
theorem acceptedPresenceRestartsWatch : Obligations.AcceptedPresenceRestartsWatch := by
  intro s f hh hsender hbody hst
  have hlive : (s.heard f).sc.station.live = true := by
    rcases hst with h | h | ⟨i, h⟩ <;> exact (congrArg StationState.live h).trans rfl
  have hexec := hh.exec_handOn hsender
  rw [State.handOn_live_other hlive (by rw [hbody]; rfl)] at hexec
  have hs := (s.heard f).settle_settlesTo
  refine ⟨_, _, hexec, rfl, ?_, hs.holds, hs.lu_but_tx rfl, ?_⟩
  · refine hs.tu_but_holds.trans ?_
    rw [State.heard, filter_evicts_not] <;> rfl
  · have hgou : (s.heard f).settle.gou = { s.gou with active := (s.heard f).settle.gou.active } :=
      congrArg State.gou hs.frame
    have hnu := hs.nu_but_settled
    have hframe := hs.frame_blocks
    generalize (s.heard f).settle = t at hgou hnu hframe
    rw [hgou, hnu] at hframe
    exact hframe

/-! ## Own frames that nothing applies -/

theorem State.segmentAccepted_eq {s : State} {x : Shadow} {i : Nat} (h : s.sc.shadow = some x) (hi : x.next = i) :
    s.segmentAccepted i = { s with sc := { s.sc with
      shadow := some { x with next := i + 1, requeue := 0, count := 0 } } } := by
  rw [State.segmentAccepted, h]
  exact if_pos hi

/-- Settles O42: what `State.ownLeft` leaves, and the wait that the JOIN begins. -/
theorem ownUnappliedFramesAccepted : Obligations.OwnUnappliedFramesAccepted := by
  intro s a hsent hw
  have hexec := hsent.exec
  refine ⟨fun digest attempt hst hsrc hbody => ?join, fun hst => ?supplying, fun hst hsrc hbody => ?presence⟩
  case join =>
    have hhand : (s.ownLeft a).handOn true a.frame = (s.ownLeft a).ownJoinAccepted := by
      have hst' : (s.ownLeft a).sc.station = .joinWait := by
        simp only [State.ownLeft, State.ownFrameLeaves, hw, hsrc]
        exact hst
      unfold State.handOn
      simp only [hst', hbody]
    rw [hhand] at hexec
    simp only [State.ownLeft, State.ownFrameLeaves, hw, hsrc] at hexec
    exact ⟨_, hexec, State.settle_settlesTo _⟩
  case supplying =>
    have hlive : s.sc.station.live = true := by
      rcases hst with h | ⟨i, h⟩ <;> rw [h] <;> rfl
    refine ⟨fun i x target attempt tsn p hsrc hbody hx hi => ?segment, fun v n hsrc hbody => ?refusal⟩
    case segment =>
      have hleft : s.ownLeft a = State.restartPresence { s with
          lu := s.lineAfterOwn
          sc := { s.sc with shadow := some { x with next := i + 1, requeue := 0, count := 0 } } } := by
        simp only [State.ownLeft, State.ownFrameLeaves, hw, hsrc, Bool.false_eq_true, if_false]
        rw [State.segmentAccepted_eq (s := { s with lu := s.lineAfterOwn }) hx hi]
      rw [hleft, State.handOn_live_other (by exact hlive) (by rw [hbody]; rfl)] at hexec
      exact ⟨_, hexec, State.settle_settlesTo _⟩
    case refusal =>
      simp only [State.ownLeft, State.ownFrameLeaves, hw, hsrc, Bool.false_eq_true, if_false] at hexec
      rw [State.handOn_live_other (by exact hlive) (by rw [hbody]; rfl)] at hexec
      exact ⟨_, hexec, State.settle_settlesTo _⟩
  case presence =>
    have hlive : s.sc.station.live = true := by
      rcases hst with h | h <;> rw [h] <;> rfl
    simp only [State.ownLeft, State.ownFrameLeaves, hw, hsrc, Bool.false_eq_true, if_false] at hexec
    rw [State.handOn_live_other (by exact hlive) (by rw [hbody]; rfl)] at hexec
    exact ⟨_, hexec, State.settle_settlesTo _⟩

end Sys2Proof.Machine
end

section
/-! The Timer Unit's part of a report from the lease table (R28), as functions of the Timer Unit alone, and the
operations of the Replica Engine on one entry as one update of the state each. -/

namespace Sys2Proof.Machine

/-! ## The Timer Unit's part -/

/-- A slot of `v` in `r` is created (R108, R113, R122, R145). -/
def TimerUnit.slotCreated (u : TimerUnit) (own : Station) (lapsed : Bool) (r : Resource) (v : Station) (g : Word16) :
    TimerUnit :=
  if v = own then
    { u with
      holds := insertHold { r := r, gen := g, elapsed := 0, running := true, lapsed := false, renewal := .idle }
        (u.holds.filter (fun h => h.r != r))
      surrender := if lapsed && !u.surrender.any (fun m => m.r == r)
        then insertSurrender { r := r, mark := .hold, count := 0 } u.surrender
        else u.surrender.map (fun m => if m.r = r ∧ m.mark = .wait then { m with mark := .hold, count := 0 } else m) }
  else
    { u with
      expiry := u.expiry.filter (fun w => !w.on r v)
        ++ [{ r := r, holder := v, gen := g, elapsed := 0, queued := false }] }

/-- A slot of `v` in `r` is removed (R108, R113, R115). -/
def TimerUnit.slotRemoved (u : TimerUnit) (own : Station) (r : Resource) (v : Station) : TimerUnit :=
  if v = own then { u with holds := u.holds.filter (fun h => h.r != r) }
  else
    { u with
      verdicts := u.verdicts.filter (fun i => !Verdict.names r v i.verdict)
      expiry := u.expiry.filter (fun w => !w.on r v) }

/-- A slot of `v` in `r` is renewed (R108, R113, R115). -/
def TimerUnit.slotRenewed (u : TimerUnit) (own : Station) (leaving : Bool) (r : Resource) (v : Station) (g : Word16) :
    TimerUnit :=
  if v = own then { u with holds := u.holds.map (fun h => if h.r = r then h.renewed g leaving else h) }
  else
    { u with
      verdicts := u.verdicts.filter (fun i => !Verdict.names r v i.verdict)
      expiry := u.expiry.map (fun w => if w.on r v then { w with gen := g, elapsed := 0, queued := false } else w) }

/-- Slots of several stations in `r` are created, one after the other (R11, R28). -/
def TimerUnit.slotsCreated (u : TimerUnit) (own : Station) (lapsed : Bool) (r : Resource) (cs : List (Station × Word16)) :
    TimerUnit :=
  cs.foldl (fun u x => u.slotCreated own lapsed r x.1 x.2) u

/-- The slots that grants create, with their generations. -/
def grantSlots (gs : List Grant) : List (Station × Word16) := gs.map (fun g => (g.station, g.gen))

/-! ## The operations on the state -/

theorem map_id_of_none {α : Type} (p : α → Prop) [DecidablePred p] (f : α → α) (xs : List α) (h : ∀ x ∈ xs, ¬ p x) :
    xs.map (fun x => if p x then f x else x) = xs := by
  refine (List.map_congr_left (fun x hx => if_neg (h x hx))).trans (List.map_id' xs)

theorem State.slotCreated_eq (s : State) (r : Resource) (v : Station) (g : Word16) :
    s.slotCreated r v g = { s with tu := s.tu.slotCreated s.own s.kp.permit.isLapsed r v g } := by
  rw [State.slotCreated, TimerUnit.slotCreated]
  by_cases hv : v = s.own
  · rw [if_pos hv, if_pos hv, State.surrenderOnGrant]
    rcases hl : s.kp.permit.isLapsed with _ | _
    · refine (if_neg (show ¬ (s.kp.permit.isLapsed = true) by simp [hl])).trans ?_
      simp only [Bool.false_and, Bool.false_eq_true, if_false]
      rfl
    · refine (if_pos (show s.kp.permit.isLapsed = true from hl)).trans ?_
      rw [State.surrenderAdd_eq]
      have hmap : ∀ xs : List SurrenderItem,
          (xs.map (fun m => if m.r = r ∧ m.mark = .wait then { m with mark := .hold, count := 0 } else m)).any
            (fun m => m.r == r) = xs.any (fun m => m.r == r) := by
        intro xs
        rw [List.any_map]
        congr 1
        funext m
        simp only [Function.comp_apply]
        split <;> rfl
      rcases hs : s.tu.surrender.any (fun m => m.r == r) with _ | _
      · have hnone : s.tu.surrender.map
            (fun m => if m.r = r ∧ m.mark = .wait then { m with mark := .hold, count := 0 } else m) = s.tu.surrender := by
          refine map_id_of_none (fun m : SurrenderItem => m.r = r ∧ m.mark = .wait) _ _ (fun m hm hr => ?_)
          have hany : s.tu.surrender.any (fun m => m.r == r) = true := List.any_eq_true.mpr ⟨m, hm, beq_iff_eq.mpr hr.1⟩
          rw [hs] at hany
          exact nomatch hany
        have hoff : State.surrendering ((s.openHold r g).setTu { (s.openHold r g).tu with
            surrender := (s.openHold r g).tu.surrender.map (fun m =>
              if m.r = r ∧ m.mark = .wait then { m with mark := .hold, count := 0 } else m) }) r = false :=
          (hmap _).trans hs
        simp only [hoff, Bool.false_eq_true, if_false, Bool.true_and, Bool.not_false, if_true]
        rw [show (s.openHold r g).tu.surrender.map (fun m =>
          if m.r = r ∧ m.mark = .wait then { m with mark := .hold, count := 0 } else m) = s.tu.surrender from hnone]
        rfl
      · have hon : State.surrendering ((s.openHold r g).setTu { (s.openHold r g).tu with
            surrender := (s.openHold r g).tu.surrender.map (fun m =>
              if m.r = r ∧ m.mark = .wait then { m with mark := .hold, count := 0 } else m) }) r = true :=
          (hmap _).trans hs
        simp only [hon, if_true, Bool.not_true, Bool.and_false, Bool.false_eq_true, if_false]
        rfl
  · rw [if_neg hv, if_neg hv]
    rfl

theorem State.slotRemoved_eq (s : State) (hq : s.lu.sending = false) (r : Resource) (v : Station) :
    ∃ l, s.slotRemoved r v = { s with lu := { s.lu with current := l }, tu := s.tu.slotRemoved s.own r v } := by
  rw [State.slotRemoved, TimerUnit.slotRemoved]
  by_cases hv : v = s.own
  · rw [if_pos hv, if_pos hv, State.closeHold_eq, State.withdrawAttempt_eq]
    exact ⟨_, rfl⟩
  · rw [if_neg hv, if_neg hv, State.closeExpiry, s.dropVerdicts_off hq]
    exact ⟨s.lu.current, rfl⟩

theorem State.slotRenewed_eq (s : State) (hq : s.lu.sending = false) (r : Resource) (v : Station) (g : Word16) :
    s.slotRenewed r v g = { s with tu := s.tu.slotRenewed s.own s.sc.station.isLeaving r v g } := by
  rw [State.slotRenewed, TimerUnit.slotRenewed]
  by_cases hv : v = s.own
  · rw [if_pos hv, if_pos hv]
    rfl
  · rw [if_neg hv, if_neg hv, State.restartExpiry, s.dropVerdicts_off hq]
    rfl

theorem State.grantNotes_cons (s : State) (r : Resource) (g : Grant) (gs : List Grant) :
    s.grantNotes r (g :: gs) = (if g.station = s.own then [.granted r g.mode] else []) ++ s.grantNotes r gs := by
  rw [State.grantNotes, List.filter_cons]
  by_cases h : g.station = s.own
  · rw [if_pos (beq_iff_eq.mpr h), if_pos h]
    rfl
  · rw [if_neg (by simpa using h), if_neg h]
    rfl

/-- The grants reported: the slots created in turn, with a GRANTED for each of this station's (R11, R28). -/
theorem State.reportGrants_eq (r : Resource) (gs : List Grant) : ∀ s : State,
    s.reportGrants r gs = { s with
      tu := s.tu.slotsCreated s.own s.kp.permit.isLapsed r (grantSlots gs), nu := s.nu.arriveAll (s.grantNotes r gs) } := by
  induction gs with
  | nil => exact fun _ => rfl
  | cons g gs ih =>
    intro s
    have hcons : s.reportGrants r (g :: gs) = State.reportGrants (if g.station = s.own
        then (s.slotCreated r g.station g.gen).note (.granted r g.mode) else s.slotCreated r g.station g.gen) r gs := rfl
    rw [hcons, State.slotCreated_eq, State.grantNotes_cons]
    by_cases h : g.station = s.own
    · rw [if_pos h, if_pos h, ih]
      rfl
    · rw [if_neg h, if_neg h, ih]
      rfl

theorem State.promoteEntry_eq (s : State) (r : Resource) (e : Entry) :
    s.promoteEntry r e = { s with
      replica := { s.replica with entries := s.replica.entries.set r.val e.promote.1 }
      tu := s.tu.slotsCreated s.own s.kp.permit.isLapsed r (grantSlots e.promote.2)
      nu := s.nu.arriveAll (s.grantNotes r e.promote.2) } := by
  rw [State.promoteEntry, State.reportGrants_eq]
  rfl

end Sys2Proof.Machine
end

section
/-! The rules of the table frames (R12 to R23), each as one update of the state, and their application for another
station. -/

namespace Sys2Proof.Machine

/-! ## Each rule -/

/-- An entry put back in its place. -/
theorem State.setEntries_self (s : State) (r : Resource) :
    { s with replica := { s.replica with entries := s.replica.entries.set r.val s.replica.entries[r] } } = s := by
  have h : s.replica.entries.set r.val s.replica.entries[r] = s.replica.entries := Vector.set_getElem_self ..
  rw [h]

/-- R12 to R15, R145. -/
theorem State.claimRule_eq (s : State) (v : Station) (r : Resource) (m : LeaseMode) (w : Bool) :
    s.claimRule v r m w = ({ s with
      replica := { s.replica with entries := s.replica.entries.set r.val (s.replica.entries[r].claim v m w) }
      tu := match s.replica.entries[r].decideClaim v m w with
        | .granted => s.tu.slotCreated s.own s.kp.permit.isLapsed r v (s.replica.entries[r].gen + 1)
        | .waiting =>
          { s.tu with
            surrender := if v = s.own ∧ s.kp.permit.isLapsed ∧ ¬ s.surrendering r
              then insertSurrender { r := r, mark := .wait, count := 0 } s.tu.surrender else s.tu.surrender }
        | _ => s.tu },
      claimOutcome s.replica.entries[r] v m w) := by
  have hentry : s.entry r = s.replica.entries[r] := rfl
  have hrefused : s.replica.entries[r].decideClaim v m w ≠ .granted → s.replica.entries[r].decideClaim v m w ≠ .waiting →
      { s with replica := { s.replica with
        entries := s.replica.entries.set r.val (s.replica.entries[r].claim v m w) } } = s := fun h1 h2 => by
    rw [Entry.claim_of_refused h1 h2, State.setEntries_self]
  simp only [State.claimRule, claimOutcome, hentry]
  rcases hd : s.replica.entries[r].decideClaim v m w with _ | _ | _ | _ | _ | _ <;> rw [hd] at hrefused
  case granted => rw [State.slotCreated_eq]; rfl
  case waiting =>
    simp only
    by_cases hv : v = s.own ∧ s.kp.permit.isLapsed = true
    · rw [if_pos hv, State.surrenderAdd_eq]
      have hsame : (s.setEntry r (s.replica.entries[r].claim v m w)).surrendering r = s.surrendering r := rfl
      rw [hsame]
      by_cases hs : s.surrendering r = true
      · rw [if_pos hs, if_neg (fun h => h.2.2 hs)]
        rfl
      · rw [if_neg hs, if_pos ⟨hv.1, hv.2, hs⟩]
        rfl
    · rw [if_neg hv, if_neg (fun h => hv ⟨h.1, h.2.1⟩)]
      rfl
  all_goals
    simp only
    rw [hrefused nofun nofun]

/-- R16, R17. -/
theorem State.releaseRule_holds {s : State} (hq : s.lu.sending = false) (own : Bool) {v : Station} {r : Resource}
    (tag : Tag) (h : s.replica.entries[r].holds v = true) :
    ∃ l, s.releaseRule own v r tag = ({ s with
      lu := { s.lu with current := l }
      replica := { s.replica with
        entries := s.replica.entries.set r.val (s.replica.entries[r].dropHolder v).promote.1 }
      tu := (s.tu.slotRemoved s.own r v).slotsCreated s.own s.kp.permit.isLapsed r
        (grantSlots (s.replica.entries[r].dropHolder v).promote.2)
      nu := s.nu.arriveAll ((if own ∧ tag = .surrender ∧ ¬ s.lapsedMark r then [.lost r .surrendered] else [])
        ++ s.grantNotes r (s.replica.entries[r].dropHolder v).promote.2) }, .released) := by
  obtain ⟨l, hl⟩ := s.slotRemoved_eq hq r v
  refine ⟨l, ?_⟩
  rw [State.releaseRule]
  refine (if_pos h).trans ?_
  simp only [hl, State.promoteEntry_eq]
  split
  · rfl
  · rfl

theorem State.releaseRule_misses {s : State} (own : Bool) {v : Station} {r : Resource} (tag : Tag)
    (h : s.replica.entries[r].holds v = false) : s.releaseRule own v r tag = (s, .notHolder) := by
  rw [State.releaseRule]
  exact if_neg (by rw [State.entry, h]; simp)

/-- R20, R21. -/
theorem State.withdrawRule_waits {s : State} (own : Bool) {v : Station} {r : Resource} (tag : Tag)
    (h : s.replica.entries[r].waits v = true) :
    s.withdrawRule own v r tag = ({ s with
      replica := { s.replica with
        entries := s.replica.entries.set r.val (s.replica.entries[r].dropWaiter v).promote.1 }
      tu := s.tu.slotsCreated s.own s.kp.permit.isLapsed r (grantSlots (s.replica.entries[r].dropWaiter v).promote.2)
      nu := s.nu.arriveAll ((if own ∧ tag = .surrender then [.waitEnded r] else [])
        ++ s.grantNotes r (s.replica.entries[r].dropWaiter v).promote.2) }, .withdrawn) := by
  rw [State.withdrawRule]
  refine (if_pos h).trans ?_
  simp only [State.promoteEntry_eq]
  split
  · rfl
  · rfl

theorem State.withdrawRule_misses {s : State} (own : Bool) {v : Station} {r : Resource} (tag : Tag)
    (h : s.replica.entries[r].waits v = false) : s.withdrawRule own v r tag = (s, .notWaiting) := by
  rw [State.withdrawRule]
  exact if_neg (by rw [State.entry, h]; simp)

/-- R18. -/
theorem State.renewRule_holds {s : State} (hq : s.lu.sending = false) (own : Bool) {v : Station} {r : Resource}
    (h : s.replica.entries[r].holds v = true) :
    s.renewRule own v r = { s with
      replica := { s.replica with entries := s.replica.entries.set r.val (s.replica.entries[r].renew v) }
      tu := s.tu.slotRenewed s.own s.sc.station.isLeaving r v (s.replica.entries[r].gen + 1) } := by
  rw [State.renewRule]
  refine (if_pos h).trans ?_
  have hq' : (s.setEntry r ((s.entry r).renew v)).lu.sending = false := hq
  rw [State.slotRenewed_eq _ hq']
  rfl

/-- R18, R19: a late RENEW of another station. -/
theorem State.renewRule_misses {s : State} {v : Station} {r : Resource} (h : s.replica.entries[r].holds v = false) :
    s.renewRule false v r = s := by
  rw [State.renewRule]
  exact (if_neg (by rw [State.entry, h]; simp)).trans rfl

/-- R22, R23. -/
theorem State.expireRule_hits {s : State} (hq : s.lu.sending = false) {r : Resource} {h : Station} {g : Word16}
    (hh : s.replica.entries[r].holdsAt h g = true) :
    ∃ l, s.expireRule r h g = { s with
      lu := { s.lu with current := l }
      replica := { s.replica with
        entries := s.replica.entries.set r.val (s.replica.entries[r].dropHolder h).promote.1 }
      tu := (if h = s.own then { s.tu.slotRemoved s.own r h with
          surrender := s.tu.surrender.filter (fun m => m.r != r) } else s.tu.slotRemoved s.own r h).slotsCreated
        s.own s.kp.permit.isLapsed r (grantSlots (s.replica.entries[r].dropHolder h).promote.2)
      nu := s.nu.arriveAll ((if h = s.own ∧ s.lapsedMark r = false then [.lost r .expired] else [])
        ++ s.grantNotes r (s.replica.entries[r].dropHolder h).promote.2) } := by
  obtain ⟨l, hl⟩ := s.slotRemoved_eq hq r h
  rw [State.expireRule]
  by_cases hown : h = s.own
  · have hsur : s.tu.surrender = (s.tu.slotRemoved s.own r h).surrender := by
      rw [TimerUnit.slotRemoved, if_pos hown]
    have hrm := State.surrenderRemove_form { s with
      lu := { s.lu with current := l }, tu := s.tu.slotRemoved s.own r h } r
    refine ⟨l.map (fun a => if a.source = .surrender r then { a with withdrawn := true } else a),
      Eq.trans (if_pos hh) ?_⟩
    rw [hl]
    simp only [if_pos hown, hrm, State.promoteEntry_eq]
    rcases hlap : s.lapsedMark r with _ | _
    · simp only [Bool.false_eq_true, if_false, and_true, if_pos hown, hsur]
      rfl
    · simp only [if_true, Bool.true_eq_false, and_false, if_false, hsur]
      rfl
  · refine ⟨l, Eq.trans (if_pos hh) ?_⟩
    rw [hl]
    simp only [hown, State.promoteEntry_eq, false_and, if_false]
    rfl

theorem State.expireRule_misses {s : State} {r : Resource} {h : Station} {g : Word16}
    (hh : s.replica.entries[r].holdsAt h g = false) : s.expireRule r h g = s := by
  rw [State.expireRule]
  exact if_neg (by rw [State.entry, hh]; simp)

end Sys2Proof.Machine
end

section
/-! A table frame of another station applied (R6, R7, R12 to R23, R28): the one entry it names, the notes, and the Timer
Unit's part by the slots that change. -/

namespace Sys2Proof.Machine

/-- A slot of entry `r` is removed, if one is: with a slot of this station the resource leaves the surrender set (R22,
R124). -/
def TimerUnit.removing (u : TimerUnit) (own : Station) (r : Resource) : Option Station → TimerUnit
  | some v =>
    if v = own then { u.slotRemoved own r v with surrender := u.surrender.filter (fun m => m.r != r) }
    else u.slotRemoved own r v
  | none => u

/-- A slot of entry `r` is renewed, if one is (R18). -/
def TimerUnit.renewing (u : TimerUnit) (own : Station) (leaving : Bool) (r : Resource) (g : Word16) :
    Option Station → TimerUnit
  | some v => u.slotRenewed own leaving r v g
  | none => u

/-- The Timer Unit after these changes to the slots of entry `r` (R28): a removed slot first, then a renewed one, then
those created. -/
def TimerUnit.follows (u : TimerUnit) (own : Station) (lapsed leaving : Bool) (r : Resource) (c : SlotChanges)
    (g : Word16) : TimerUnit :=
  ((u.removing own r c.removed).renewing own leaving r g c.renewed).slotsCreated own lapsed r c.created

/-- LOST(EXPIRED), told before the grants when an EXPIRE removes this station's slot (R23). -/
def State.tableLoss (s : State) (valid : Bool) (r : Resource) : Body → List Note
  | .expire _ h g =>
    if valid = true ∧ h = s.own ∧ s.replica.entries[r].holdsAt h g = true ∧ s.lapsedMark r = false
    then [.lost r .expired] else []
  | _ => []

/-- What a table frame of another station makes of the state, the current attempt aside. -/
def State.tableApplied (s : State) (f : Frame) (r : Resource) (act : Entry × List Grant) (c : SlotChanges) : State :=
  { s with
    replica := { s.replica with entries := s.replica.entries.set r.val act.1, tsn := s.replica.tsn + 1 }
    tu := s.tu.follows s.own s.kp.permit.isLapsed s.sc.station.isLeaving r c (s.replica.entries[r].gen + 1)
    nu := s.nu.arriveAll (s.tableLoss (s.validActor f) r f.body ++ s.grantNotes r act.2) }

/-- No slot changes. -/
def SlotChanges.none : SlotChanges := { removed := Option.none, renewed := Option.none, created := [] }

theorem State.tableApplied_nothing (s : State) (f : Frame) (r : Resource)
    (h : s.tableLoss (s.validActor f) r f.body = []) :
    s.tableApplied f r (s.replica.entries[r], []) SlotChanges.none = s.advanceTsn := by
  have hset : s.replica.entries.set r.val s.replica.entries[r] = s.replica.entries := Vector.set_getElem_self ..
  rw [State.tableApplied, h, hset]
  rfl

/-- A frame of a valid actor that changes nothing in the entry. -/
def Misses (e : Entry) (v : Station) (b : Body) : Prop := tableRule e v b = (e, []) ∧ slotChanges e v b = SlotChanges.none

theorem Misses.release {e : Entry} {v : Station} (h : e.holds v = false) (r : Resource) (t : Tag) :
    Misses e v (.release r t) := by
  simp [Misses, tableRule, slotChanges, h, SlotChanges.none]

theorem Misses.renew {e : Entry} {v : Station} (h : e.holds v = false) (r : Resource) : Misses e v (.renew r) := by
  simp [Misses, tableRule, slotChanges, h, SlotChanges.none]

theorem Misses.withdraw {e : Entry} {v : Station} (h : e.waits v = false) (r : Resource) (t : Tag) :
    Misses e v (.withdraw r t) := by
  simp [Misses, tableRule, slotChanges, h, SlotChanges.none]

theorem Misses.expire {e : Entry} {h : Station} {g : Word16} (hh : e.holdsAt h g = false) (v : Station) (r : Resource) :
    Misses e v (.expire r h g) := by
  simp [Misses, tableRule, slotChanges, hh, SlotChanges.none]

theorem State.tableApplied_missed {s : State} {f : Frame} {r : Resource}
    (h : Misses s.replica.entries[r] f.sender f.body) (h3 : s.tableLoss (s.validActor f) r f.body = []) :
    s.tableApplied f r (tableRule s.replica.entries[r] f.sender f.body) (slotChanges s.replica.entries[r] f.sender f.body)
      = s.advanceTsn := by
  rw [h.1, h.2, State.tableApplied_nothing s f r h3]

/-- A stray changes nothing but the TSN (R7). -/
theorem State.applyRule_table_stray {s : State} {f : Frame} {r : Resource} (live : Bool)
    (hr : tableResource f.body = some r) (hv : s.validActor f = false) :
    s.applyRule live false f = (s.tableApplied f r (s.replica.entries[r], []) SlotChanges.none, Report.nothing) := by
  have hloss : s.tableLoss (s.validActor f) r f.body = [] := by
    rw [hv]
    cases f.body <;> simp [State.tableLoss]
  rw [State.tableApplied_nothing s f r hloss, State.applyRule]
  rcases hb : f.body with ⟨r', m, w, t⟩ | ⟨r', t⟩ | r' | ⟨r', t⟩ | ⟨r', h, g⟩ | ⟨d, a⟩ | _ | _ | ⟨v, i⟩ | _ | ⟨v, a⟩ | ⟨v, a, t, p⟩
  case claim | release | renew | withdraw | expire => simp [hv]
  all_goals
    rw [hb] at hr
    exact nomatch hr

/-- What a table frame of a valid actor does (R12 to R23). -/
theorem State.applyRule_table_valid {s : State} {f : Frame} {r : Resource} (hq : s.lu.sending = false) (live : Bool)
    (hr : tableResource f.body = some r) (hs : f.sender ≠ s.own) (hv : s.validActor f = true) :
    ∃ l, s.applyRule live false f = ({ s.tableApplied f r (tableRule s.replica.entries[r] f.sender f.body)
      (slotChanges s.replica.entries[r] f.sender f.body) with lu := { s.lu with current := l } }, Report.nothing) := by
  rcases hb : f.body with ⟨r', m, w, t⟩ | ⟨r', t⟩ | r' | ⟨r', t⟩ | ⟨r', h, g⟩ | ⟨d, a⟩ | _ | _ | ⟨v, i⟩ | _ | ⟨v, a⟩ | ⟨v, a, t, p⟩
    <;> rw [hb] at hr
  case claim =>
    obtain rfl : r' = r := Option.some.inj hr
    refine ⟨s.lu.current, ?_⟩
    rw [State.applyRule, hb]
    simp only [hv, if_true, Bool.false_eq_true, if_false, State.claimRule_eq]
    rcases hd : s.replica.entries[r'].decideClaim f.sender m w with _ | _ | _ | _ | _ | _ <;>
      simp only [State.tableApplied, slotChanges, hd, hs, false_and, if_false, if_true, reduceCtorEq, hb] <;> rfl
  case release =>
    obtain rfl : r' = r := Option.some.inj hr
    rcases hh : s.replica.entries[r'].holds f.sender with _ | _
    · refine ⟨s.lu.current, ?_⟩
      rw [State.applyRule, hb]
      simp only [hv, if_true, Bool.false_eq_true, if_false, State.releaseRule_misses _ _ hh]
      rw [← hb, State.tableApplied_missed (hb ▸ .release hh r' t) (by rw [hb]; rfl)]
      rfl
    · obtain ⟨l, hl⟩ := State.releaseRule_holds hq false t hh
      refine ⟨l, ?_⟩
      rw [State.applyRule, hb]
      simp only [hv, if_true, Bool.false_eq_true, if_false, hl]
      simp only [State.tableApplied, slotChanges, tableRule, hh, if_true, TimerUnit.follows, TimerUnit.removing, if_neg hs, hb]
      rfl
  case renew =>
    obtain rfl : r' = r := Option.some.inj hr
    refine ⟨s.lu.current, ?_⟩
    rw [State.applyRule, hb]
    rcases hh : s.replica.entries[r'].holds f.sender with _ | _
    · simp only [hv, if_true, Bool.false_eq_true, if_false, false_and, State.renewRule_misses hh]
      rw [← hb, State.tableApplied_missed (hb ▸ .renew hh r') (by rw [hb]; rfl)]
      rfl
    · simp only [hv, if_true, Bool.false_eq_true, if_false, false_and, State.renewRule_holds hq false hh]
      simp only [State.tableApplied, slotChanges, tableRule, hh, if_true, TimerUnit.follows, hb]
      rfl
  case withdraw =>
    obtain rfl : r' = r := Option.some.inj hr
    refine ⟨s.lu.current, ?_⟩
    rw [State.applyRule, hb]
    rcases hh : s.replica.entries[r'].waits f.sender with _ | _
    · simp only [hv, if_true, Bool.false_eq_true, if_false, State.withdrawRule_misses _ _ hh]
      rw [← hb, State.tableApplied_missed (hb ▸ .withdraw hh r' t) (by rw [hb]; rfl)]
      rfl
    · simp only [hv, if_true, Bool.false_eq_true, if_false, State.withdrawRule_waits false t hh]
      simp only [State.tableApplied, slotChanges, tableRule, hh, if_true, TimerUnit.follows, hb]
      rfl
  case expire =>
    obtain rfl : r' = r := Option.some.inj hr
    rcases hh : s.replica.entries[r'].holdsAt h g with _ | _
    · refine ⟨s.lu.current, ?_⟩
      rw [State.applyRule, hb]
      simp only [hv, if_true, Bool.false_eq_true, if_false, State.expireRule_misses hh]
      rw [← hb, State.tableApplied_missed (hb ▸ .expire hh f.sender r')
        (by rw [hb, State.tableLoss, hh, if_neg (by simp)])]
      rfl
    · obtain ⟨l, hl⟩ := State.expireRule_hits hq hh
      refine ⟨l, ?_⟩
      rw [State.applyRule, hb]
      simp only [hv, if_true, Bool.false_eq_true, if_false, hl]
      simp only [State.tableApplied, slotChanges, tableRule, hh, if_true, TimerUnit.follows, State.tableLoss, hb, hv,
        true_and]
      rfl
  all_goals exact nomatch hr

end Sys2Proof.Machine
end

section
/-! What the Timer Unit keeps when slots of one entry change, and what it makes of them (R28, R108, R113, R115, R122). -/

namespace Sys2Proof.Machine

/-! ## Other resources -/

/-- Nothing differs but what belongs to `r` and the verdicts. -/
structure SameElsewhere (r : Resource) (u x : TimerUnit) : Prop where
  holds : x.holds.filter (fun h => h.r != r) = u.holds.filter (fun h => h.r != r)
  expiry : x.expiry.filter (fun w => w.r != r) = u.expiry.filter (fun w => w.r != r)
  surrender : x.surrender.filter (fun m => m.r != r) = u.surrender.filter (fun m => m.r != r)
  presence : x.presence = u.presence
  presenceTimer : x.presenceTimer = u.presenceTimer
  presenceOffer : x.presenceOffer = u.presenceOffer

theorem SameElsewhere.refl (r : Resource) (u : TimerUnit) : SameElsewhere r u u := ⟨rfl, rfl, rfl, rfl, rfl, rfl⟩

theorem SameElsewhere.trans {r : Resource} {u x y : TimerUnit} (h : SameElsewhere r u x) (g : SameElsewhere r x y) :
    SameElsewhere r u y :=
  ⟨g.holds.trans h.holds, g.expiry.trans h.expiry, g.surrender.trans h.surrender, g.presence.trans h.presence,
    g.presenceTimer.trans h.presenceTimer, g.presenceOffer.trans h.presenceOffer⟩

theorem insertHold_filter {x : OwnHold} {p : OwnHold → Bool} (hx : p x = false) (xs : List OwnHold) :
    (insertHold x xs).filter p = xs.filter p := by
  induction xs with
  | nil => simp [insertHold, hx]
  | cons y ys ih =>
    unfold insertHold
    split
    · rw [List.filter_cons_of_neg (by simp [hx])]
    · rw [List.filter_cons, List.filter_cons, ih]

theorem insertSurrender_filter {x : SurrenderItem} {p : SurrenderItem → Bool} (hx : p x = false) (xs : List SurrenderItem) :
    (insertSurrender x xs).filter p = xs.filter p := by
  induction xs with
  | nil => simp [insertSurrender, hx]
  | cons y ys ih =>
    unfold insertSurrender
    split
    · rw [List.filter_cons_of_neg (by simp [hx])]
    · rw [List.filter_cons, List.filter_cons, ih]

/-- What a filter keeps is kept through a filter that drops only what it drops. -/
theorem filter_filter_of_imp {α : Type} {p q : α → Bool} (h : ∀ x, p x = true → q x = true) (xs : List α) :
    (xs.filter q).filter p = xs.filter p := by
  rw [List.filter_filter]
  refine List.filter_congr (fun x _ => ?_)
  rcases hp : p x with _ | _
  · rfl
  · rw [h x hp]
    rfl

/-- What a filter keeps is kept through a change of what it drops. -/
theorem filter_map_of_fixed {α : Type} {p : α → Bool} {f : α → α} (hp : ∀ x, p (f x) = p x)
    (hf : ∀ x, p x = true → f x = x) (xs : List α) : (xs.map f).filter p = xs.filter p := by
  rw [List.filter_map, show p ∘ f = p from funext hp]
  refine (List.map_congr_left (fun x hx => hf x ?_)).trans (List.map_id' _)
  exact (List.mem_filter.mp hx).2

theorem ExpiryWatch.on_of_other {w : ExpiryWatch} {r : Resource} {v : Station} (h : (w.r != r) = true) :
    w.on r v = false := by
  simp only [bne_iff_ne] at h
  simp [ExpiryWatch.on, h]

theorem SameElsewhere.slotCreated (u : TimerUnit) (own : Station) (lapsed : Bool) (r : Resource) (v : Station)
    (g : Word16) : SameElsewhere r u (u.slotCreated own lapsed r v g) := by
  unfold TimerUnit.slotCreated
  by_cases hv : v = own
  · rw [if_pos hv]
    refine ⟨?_, rfl, ?_, rfl, rfl, rfl⟩
    · rw [insertHold_filter (by simp), filter_filter_of_imp (fun _ h => h)]
    · dsimp only
      split
      · exact insertSurrender_filter (by simp) _
      · refine filter_map_of_fixed (fun m => ?_) (fun m hm => if_neg (fun h => ?_)) _
        · split <;> rfl
        · simp [h.1] at hm
  · rw [if_neg hv]
    refine ⟨rfl, ?_, rfl, rfl, rfl, rfl⟩
    dsimp only
    rw [List.filter_append, filter_filter_of_imp (fun w hw => by rw [ExpiryWatch.on_of_other hw]; rfl)]
    simp

theorem SameElsewhere.slotsCreated (own : Station) (lapsed : Bool) (r : Resource) (cs : List (Station × Word16)) :
    ∀ u : TimerUnit, SameElsewhere r u (u.slotsCreated own lapsed r cs) := by
  induction cs with
  | nil => exact .refl r
  | cons c cs ih => exact fun u => (SameElsewhere.slotCreated u own lapsed r c.1 c.2).trans (ih _)

theorem SameElsewhere.slotRemoved (u : TimerUnit) (own : Station) (r : Resource) (v : Station) :
    SameElsewhere r u (u.slotRemoved own r v) := by
  unfold TimerUnit.slotRemoved
  by_cases hv : v = own
  · rw [if_pos hv]
    exact ⟨filter_filter_of_imp (fun _ h => h) _, rfl, rfl, rfl, rfl, rfl⟩
  · rw [if_neg hv]
    exact ⟨rfl, filter_filter_of_imp (fun w hw => by rw [ExpiryWatch.on_of_other hw]; rfl) _, rfl, rfl, rfl, rfl⟩

theorem SameElsewhere.slotRenewed (u : TimerUnit) (own : Station) (leaving : Bool) (r : Resource) (v : Station)
    (g : Word16) : SameElsewhere r u (u.slotRenewed own leaving r v g) := by
  unfold TimerUnit.slotRenewed
  by_cases hv : v = own
  · rw [if_pos hv]
    refine ⟨filter_map_of_fixed (fun h => ?_) (fun h hh => if_neg (fun hr => ?_)) _, rfl, rfl, rfl, rfl, rfl⟩
    · split <;> rfl
    · simp [hr] at hh
  · rw [if_neg hv]
    refine ⟨rfl, filter_map_of_fixed (fun w => ?_) (fun w hw => ?_) _, rfl, rfl, rfl, rfl⟩
    · split <;> rfl
    · rw [ExpiryWatch.on_of_other hw]
      rfl

theorem SameElsewhere.follows (u : TimerUnit) (own : Station) (lapsed leaving : Bool) (r : Resource) (c : SlotChanges)
    (g : Word16) : SameElsewhere r u (u.follows own lapsed leaving r c g) := by
  unfold TimerUnit.follows
  refine SameElsewhere.trans ?_ (SameElsewhere.slotsCreated own lapsed r c.created _)
  refine SameElsewhere.trans (x := u.removing own r c.removed) ?_ ?_
  · rcases c.removed with _ | v
    · exact .refl r u
    · have h := SameElsewhere.slotRemoved u own r v
      rw [TimerUnit.removing]
      split
      · exact ⟨h.holds, h.expiry, filter_filter_of_imp (fun _ h => h) _, h.presence, h.presenceTimer, h.presenceOffer⟩
      · exact h
  · rcases c.renewed with _ | v
    · exact .refl r _
    · exact SameElsewhere.slotRenewed _ own leaving r v g

/-! ## The resource whose slots change -/

/-- Watches after slots of `r` are created. -/
def expiryCreated (ws : List ExpiryWatch) (own : Station) (r : Resource) (cs : List (Station × Word16)) :
    List ExpiryWatch :=
  ws.filter (fun w => !(w.r == r && w.holder != own && cs.any (fun x => x.1 == w.holder)))
    ++ (cs.filter (fun x => x.1 != own)).map
      (fun x => { r := r, holder := x.1, gen := x.2, elapsed := 0, queued := false })

/-- Own-hold records after them. -/
def holdsCreated (hs : List OwnHold) (own : Station) (r : Resource) (cs : List (Station × Word16)) : List OwnHold :=
  match cs.find? (fun x => x.1 == own) with
  | some x => insertHold { r := r, gen := x.2, elapsed := 0, running := true, lapsed := false, renewal := .idle }
      (hs.filter (fun h => h.r != r))
  | none => hs

/-- The surrender set after them. -/
def surrenderCreated (ms : List SurrenderItem) (own : Station) (r : Resource) (cs : List (Station × Word16))
    (lapsed : Bool) : List SurrenderItem :=
  if cs.any (fun x => x.1 == own) then
    if lapsed && !ms.any (fun m => m.r == r) then insertSurrender { r := r, mark := .hold, count := 0 } ms
    else ms.map (fun m => if m.r = r ∧ m.mark = .wait then { m with mark := .hold, count := 0 } else m)
  else ms

theorem expiryCreated_cons_other (ws : List ExpiryWatch) {own : Station} (r : Resource) {v : Station} (g : Word16)
    (cs : List (Station × Word16)) (hv : v ≠ own) (hn : ∀ c ∈ cs, c.1 ≠ v) :
    expiryCreated (ws.filter (fun w => !w.on r v) ++ [{ r := r, holder := v, gen := g, elapsed := 0, queued := false }])
      own r cs = expiryCreated ws own r ((v, g) :: cs) := by
  have hkeep : cs.any (fun x => x.1 == v) = false := by
    rw [List.any_eq_false]
    exact fun c hc => by simpa using hn c hc
  have hfilter : (ws.filter (fun w => !w.on r v)).filter
        (fun w => !(w.r == r && w.holder != own && cs.any (fun x => x.1 == w.holder)))
      = ws.filter (fun w => !(w.r == r && w.holder != own && ((v, g) :: cs).any (fun x => x.1 == w.holder))) := by
    rw [List.filter_filter]
    refine List.filter_congr (fun w _ => ?_)
    by_cases hr : w.r = r
    · by_cases hw : w.holder = v
      · simp [ExpiryWatch.on, hr, hw, hv]
      · have hvw : (v == w.holder) = false := beq_eq_false_iff_ne.mpr (Ne.symm hw)
        have hwv : (w.holder == v) = false := beq_eq_false_iff_ne.mpr hw
        simp [ExpiryWatch.on, hr, hvw, hwv]
    · have hrb : (w.r == r) = false := beq_eq_false_iff_ne.mpr hr
      simp [ExpiryWatch.on, hrb]
  rw [expiryCreated, expiryCreated, List.filter_append, hfilter, List.append_assoc]
  congr 1
  rw [List.filter_cons_of_pos (by simp [hkeep]), List.filter_cons_of_pos (by simpa using hv)]
  rfl

/-- The Timer Unit after slots of different stations in `r` are created. -/
theorem TimerUnit.slotsCreated_eq (own : Station) (lapsed : Bool) (r : Resource) (cs : List (Station × Word16)) :
    ∀ u : TimerUnit, (cs.map Prod.fst).Nodup → u.slotsCreated own lapsed r cs = { u with
      holds := holdsCreated u.holds own r cs, expiry := expiryCreated u.expiry own r cs
      surrender := surrenderCreated u.surrender own r cs lapsed } := by
  induction cs with
  | nil =>
    intro u _
    have hexp : expiryCreated u.expiry own r [] = u.expiry := by simp [expiryCreated]
    rw [hexp]
    rfl
  | cons c cs ih =>
    intro u hnd
    obtain ⟨v, g⟩ := c
    rw [List.map_cons, List.nodup_cons] at hnd
    have hothers : ∀ x ∈ cs, x.1 ≠ v := fun x hx hxv => hnd.1 (List.mem_map.mpr ⟨x, hx, hxv⟩)
    have hstep : u.slotsCreated own lapsed r ((v, g) :: cs) = (u.slotCreated own lapsed r v g).slotsCreated own lapsed r cs :=
      rfl
    rw [hstep, ih _ hnd.2, TimerUnit.slotCreated]
    by_cases hv : v = own
    · subst hv
      have hfind : cs.find? (fun x => x.1 == v) = none := List.find?_eq_none.mpr (fun x hx => by simpa using hothers x hx)
      have hany : cs.any (fun x => x.1 == v) = false := List.any_eq_false.mpr (fun x hx => by simpa using hothers x hx)
      have hexp : expiryCreated u.expiry v r cs = expiryCreated u.expiry v r ((v, g) :: cs) := by
        have hfilter : u.expiry.filter (fun w => !(w.r == r && w.holder != v && cs.any (fun x => x.1 == w.holder)))
            = u.expiry.filter (fun w => !(w.r == r && w.holder != v && ((v, g) :: cs).any (fun x => x.1 == w.holder))) := by
          refine List.filter_congr (fun w _ => ?_)
          by_cases hw : w.holder = v
          · simp [hw]
          · have hvw : (v == w.holder) = false := beq_eq_false_iff_ne.mpr (Ne.symm hw)
            simp [hvw]
        rw [expiryCreated, expiryCreated, hfilter, List.filter_cons_of_neg (by simp)]
      simp only [if_true, holdsCreated, surrenderCreated, hfind, hany, Bool.false_eq_true, if_false, hexp,
        List.find?_cons, List.any_cons, beq_self_eq_true, Bool.true_or]
    · have hvb : (v == own) = false := beq_eq_false_iff_ne.mpr hv
      simp only [if_neg hv, expiryCreated_cons_other _ r g cs hv hothers, holdsCreated, surrenderCreated, List.find?_cons,
        List.any_cons, hvb, Bool.false_or]

end Sys2Proof.Machine
end

section
/-! The Timer Unit after the slots of one entry have changed, and the table frames of another station (R6, R7, R11 to
R23, R28). -/

namespace Sys2Proof.Machine

/-! ## Removed, renewed, created -/

/-- A verdict that the changes leave in the queue (R115). -/
def verdictKept (own : Station) (r : Resource) (c : SlotChanges) : Verdict → Bool
  | .evict _ _ => true
  | .expire r' v _ => !(r' == r && v != own && (c.removed == some v || c.renewed == some v))

/-- Watches after the removal of a slot. -/
def expiryRemoved (ws : List ExpiryWatch) (own : Station) (r : Resource) (c : SlotChanges) : List ExpiryWatch :=
  ws.filter (fun w => !(w.r == r && w.holder != own && c.removed == some w.holder))

/-- Watches after the renewal of a slot. -/
def expiryRenewed (ws : List ExpiryWatch) (r : Resource) (c : SlotChanges) (g : Word16) : List ExpiryWatch :=
  ws.map (fun w => if w.r = r ∧ c.renewed = some w.holder then { w with gen := g, elapsed := 0, queued := false } else w)

/-- The Timer Unit after the removal alone. -/
theorem TimerUnit.removed_eq (u : TimerUnit) (own : Station) (r : Resource) (c : SlotChanges) :
    u.removing own r c.removed = { u with
      holds := if c.removed = some own then u.holds.filter (fun h => h.r != r) else u.holds
      expiry := expiryRemoved u.expiry own r c
      verdicts := u.verdicts.filter (fun i => verdictKept own r { c with renewed := none } i.verdict)
      surrender := if c.removed = some own then u.surrender.filter (fun m => m.r != r) else u.surrender } := by
  have hall : ∀ {α : Type} {p : α → Bool} (xs : List α), (∀ x, p x = true) → xs.filter p = xs := fun xs h =>
    List.filter_eq_self.mpr (fun x _ => h x)
  rcases hc : c.removed with _ | v
  · have hexp : expiryRemoved u.expiry own r c = u.expiry := hall _ (fun w => by simp [hc])
    have hver : u.verdicts.filter (fun i => verdictKept own r { c with renewed := none } i.verdict) = u.verdicts :=
      hall _ (fun i => by rcases i.verdict with ⟨r', h, g⟩ | ⟨w, i⟩ <;> simp [verdictKept, hc])
    rw [hc] at hver
    simp only [TimerUnit.removing, reduceCtorEq, if_false, hexp, hver]
  · by_cases hv : v = own
    · subst hv
      have hexp : expiryRemoved u.expiry v r c = u.expiry := hall _ (fun w => by
        rw [hc]
        by_cases hw : w.holder = v
        · simp [hw]
        · have hvw : (some v == some w.holder) = false := by simpa using Ne.symm hw
          simp [hvw])
      have hver : u.verdicts.filter (fun i => verdictKept v r { c with renewed := none } i.verdict) = u.verdicts :=
        hall _ (fun i => by
          rcases i.verdict with ⟨r', h, g⟩ | ⟨w, i⟩
          · by_cases hw : h = v
            · simp [verdictKept, hw]
            · have hvw : (some v == some h) = false := by simpa using Ne.symm hw
              simp [verdictKept, hc, hvw]
          · rfl)
      rw [hc] at hver
      simp only [TimerUnit.removing, if_true, TimerUnit.slotRemoved, hexp, hver]
    · have hexp : u.expiry.filter (fun w => !w.on r v) = expiryRemoved u.expiry own r c :=
        List.filter_congr (fun w _ => by
          rw [hc]
          by_cases hw : w.holder = v
          · simp [ExpiryWatch.on, hw, hv]
          · have hvw : (some v == some w.holder) = false := by simpa using Ne.symm hw
            have hwv : (w.holder == v) = false := beq_eq_false_iff_ne.mpr hw
            simp [ExpiryWatch.on, hvw, hwv])
      have hver : u.verdicts.filter (fun i => !Verdict.names r v i.verdict)
          = u.verdicts.filter (fun i => verdictKept own r { c with renewed := none } i.verdict) :=
        List.filter_congr (fun i _ => by
          rcases i.verdict with ⟨r', h, g⟩ | ⟨w, i⟩
          · by_cases hw : h = v
            · simp [Verdict.names, verdictKept, hc, hw, hv]
            · have hvw : (some v == some h) = false := by simpa using Ne.symm hw
              have hwv : (h == v) = false := beq_eq_false_iff_ne.mpr hw
              simp [Verdict.names, verdictKept, hc, hvw, hwv]
          · rfl)
      have hne : ¬ (some v = some own) := by simpa using hv
      rw [hc] at hver
      simp only [TimerUnit.removing, if_neg hv, if_neg hne, TimerUnit.slotRemoved, hexp, hver]

/-- The Timer Unit after the renewal of another station's slot. -/
theorem TimerUnit.renewed_eq (u : TimerUnit) {own : Station} (leaving : Bool) (r : Resource) {c : SlotChanges}
    (g : Word16) (hc : c.renewed ≠ some own) :
    u.renewing own leaving r g c.renewed = { u with
      expiry := expiryRenewed u.expiry r c g
      verdicts := u.verdicts.filter (fun i => verdictKept own r { c with removed := none } i.verdict) } := by
  rcases h : c.renewed with _ | v
  · have hexp : expiryRenewed u.expiry r c g = u.expiry :=
      map_id_of_none (fun w : ExpiryWatch => w.r = r ∧ c.renewed = some w.holder) _ _ (fun w _ hw => by simp [h] at hw)
    have hver : u.verdicts.filter (fun i => verdictKept own r { c with removed := none } i.verdict) = u.verdicts :=
      List.filter_eq_self.mpr (fun i _ => by rcases i.verdict with ⟨r', x, y⟩ | ⟨w, i⟩ <;> simp [verdictKept, h])
    rw [h] at hver
    simp only [TimerUnit.renewing, hexp, hver]
  · have hv : v ≠ own := fun hv => hc (by rw [h, hv])
    have hexp : u.expiry.map (fun w => if w.on r v then { w with gen := g, elapsed := 0, queued := false } else w)
        = expiryRenewed u.expiry r c g := by
      refine List.map_congr_left (fun w _ => ?_)
      have hon : (w.on r v = true) ↔ (w.r = r ∧ c.renewed = some w.holder) := by
        rw [h]
        simp only [ExpiryWatch.on, Bool.and_eq_true, beq_iff_eq, Option.some.injEq]
        exact and_congr_right (fun _ => eq_comm)
      by_cases hw : w.on r v = true
      · rw [if_pos hw, if_pos (hon.mp hw)]
      · rw [if_neg hw, if_neg (fun x => hw (hon.mpr x))]
    have hver : u.verdicts.filter (fun i => !Verdict.names r v i.verdict)
        = u.verdicts.filter (fun i => verdictKept own r { c with removed := none } i.verdict) :=
      List.filter_congr (fun i _ => by
        rcases i.verdict with ⟨r', x, y⟩ | ⟨w, i⟩
        · by_cases hw : x = v
          · simp [Verdict.names, verdictKept, h, hw, hv]
          · have hvw : (some v == some x) = false := by simpa using Ne.symm hw
            have hwv : (x == v) = false := beq_eq_false_iff_ne.mpr hw
            simp [Verdict.names, verdictKept, h, hvw, hwv]
        · rfl)
    rw [h] at hver
    simp only [TimerUnit.renewing, TimerUnit.slotRenewed, if_neg hv, hexp, hver]

theorem holdsAfter_eq (hs : List OwnHold) (own : Station) (r : Resource) (c : SlotChanges) :
    holdsCreated (if c.removed = some own then hs.filter (fun h => h.r != r) else hs) own r c.created
      = holdsAfter hs own r c := by
  unfold holdsCreated holdsAfter
  have hcut : (if c.removed = some own then hs.filter (fun h => h.r != r) else hs).filter (fun h => h.r != r)
      = hs.filter (fun h => h.r != r) := by
    split
    · exact filter_filter_of_imp (fun _ h => h) hs
    · rfl
  rw [hcut] <;> rfl

theorem expiryAfter_eq (ws : List ExpiryWatch) (own : Station) (r : Resource) (c : SlotChanges) (g : Word16) :
    expiryCreated (expiryRenewed (expiryRemoved ws own r c) r c g) own r c.created = expiryAfter ws own r c g := by
  rw [expiryCreated, expiryRenewed, expiryRemoved, expiryAfter, List.filter_map]
  congr 1
  rw [show ((fun w : ExpiryWatch => !(w.r == r && w.holder != own && c.created.any (fun x => x.1 == w.holder)))
      ∘ (fun w => if w.r = r ∧ c.renewed = some w.holder then { w with gen := g, elapsed := 0, queued := false } else w))
      = (fun w : ExpiryWatch => !(w.r == r && w.holder != own && c.created.any (fun x => x.1 == w.holder))) from
    funext (fun w => by simp only [Function.comp_apply]; split <;> rfl)]
  rw [List.filter_filter]
  congr 1
  refine List.filter_congr (fun w _ => ?_)
  rcases w.r == r <;> rcases w.holder != own <;> rcases c.removed == some w.holder <;>
    rcases c.created.any (fun x => x.1 == w.holder) <;> rfl

theorem surrenderAfter_eq (ms : List SurrenderItem) (own : Station) (r : Resource) {c : SlotChanges} (lapsed : Bool)
    (hc : ∀ v, c.removed = some v → ∀ x ∈ c.created, x.1 ≠ v) :
    surrenderCreated (if c.removed = some own then ms.filter (fun m => m.r != r) else ms) own r c.created lapsed
      = surrenderAfter ms own r c lapsed := by
  unfold surrenderCreated surrenderAfter
  by_cases ho : c.created.any (fun x => x.1 == own) = true
  · have hno : c.removed ≠ some own := fun hr => by
      obtain ⟨x, hx, hxo⟩ := List.any_eq_true.mp ho
      exact hc own hr x hx (beq_iff_eq.mp hxo)
    rw [if_pos ho, if_pos ho, if_neg hno]
  · rw [if_neg ho, if_neg ho]

/-- The Timer Unit after the slots of `r` have changed: to different stations, none of them the one removed, and the slot
renewed being another station's. -/
theorem TimerUnit.follows_eq (u : TimerUnit) {own : Station} (lapsed leaving : Bool) (r : Resource) {c : SlotChanges}
    (g : Word16) (hnd : (c.created.map Prod.fst).Nodup) (hren : c.renewed ≠ some own)
    (hrem : ∀ v, c.removed = some v → ∀ x ∈ c.created, x.1 ≠ v) :
    u.follows own lapsed leaving r c g = { u with
      holds := holdsAfter u.holds own r c
      expiry := expiryAfter u.expiry own r c g
      verdicts := u.verdicts.filter (fun i => verdictKept own r c i.verdict)
      surrender := surrenderAfter u.surrender own r c lapsed } := by
  have hver : ∀ xs : List VerdictItem,
      (xs.filter (fun i => verdictKept own r { c with renewed := none } i.verdict)).filter
          (fun i => verdictKept own r { c with removed := none } i.verdict)
        = xs.filter (fun i => verdictKept own r c i.verdict) := fun xs => by
    rw [List.filter_filter]
    refine List.filter_congr (fun i _ => ?_)
    rcases i.verdict with ⟨r', v, x⟩ | ⟨w, i⟩
    · simp only [verdictKept, show ((none : Option Station) == some v) = false from rfl, Bool.false_or, Bool.or_false]
      rcases r' == r <;> rcases v != own <;> rcases c.removed == some v <;> rcases c.renewed == some v <;> rfl
    · rfl
  rw [TimerUnit.follows, TimerUnit.removed_eq, TimerUnit.renewed_eq _ leaving r g hren, TimerUnit.slotsCreated_eq _ _ _ _ _ hnd]
  simp only [holdsAfter_eq, expiryAfter_eq, surrenderAfter_eq _ _ _ _ hrem, hver]

end Sys2Proof.Machine
end

section
/-! The application of a state frame while the replica is live (R6, R51, R54), and the table frames of other stations
(R12 to R23, R28). -/

namespace Sys2Proof.Machine

/-! ## One application -/

/-- A frame of another station in step: of a MEMBER, it clears the mismatch record (R51). -/
def State.inStep (s : State) (f : Frame) : State :=
  { s with replica := { s.replica with mismatch := if f.role = .member then none else s.replica.mismatch } }

/-- The own incarnation follows the own roster entry (R54). -/
def State.followInc (s : State) : State := { s with sc := { s.sc with ownInc := s.replica.roster[s.own].inc } }

theorem State.takeReport_nothing (s : State) : s.takeReport Report.nothing = s := rfl

/-- A frame of another station in step makes no divergence (R51). -/
theorem State.applyLive_foreign {s : State} {f : Frame} (h : f.role = .member → f.baseTsn = s.replica.tsn) :
    s.applyLive false f = ((s.inStep f).applyRule true false f).1.followInc.takeReport
      { ((s.inStep f).applyRule true false f).2 with diverged := false } := by
  rw [State.applyLive, State.applyFrame]
  rcases hr : f.role with _ | _
  · have hm : (f.role == .member) = true := by rw [hr]; rfl
    have hcompare : s.compareTsn f = (s.inStep f, false) := by
      rw [State.compareTsn, if_pos (h hr), State.inStep, if_pos hr]
      rfl
    simp only [Bool.not_false, Bool.and_self, beq_self_eq_true, if_true, hcompare]
    rfl
  · have hsame : s.inStep f = s := by rw [State.inStep, hr]; rfl
    have hm : (Role.joiner == Role.member) = false := rfl
    simp only [hm, Bool.and_false, Bool.false_eq_true, if_false, hsame]
    rfl

/-- An own frame is not compared (R51). -/
theorem State.applyLive_own (s : State) (f : Frame) :
    s.applyLive true f = (s.applyRule true true f).1.followInc.takeReport
      { (s.applyRule true true f).2 with diverged := false } := by
  rw [State.applyLive, State.applyFrame]
  rfl

/-- An own frame that reports nothing. -/
theorem State.applyLive_own_nothing {s t : State} {f : Frame} (h : s.applyRule true true f = (t, Report.nothing)) :
    s.applyLive true f = t.followInc := by
  rw [State.applyLive_own, h]
  rfl

/-- A frame of another station, in step, that reports nothing. -/
theorem State.applyLive_foreign_nothing {s t : State} {f : Frame} (h : f.role = .member → f.baseTsn = s.replica.tsn)
    (ht : (s.inStep f).applyRule true false f = (t, Report.nothing)) : s.applyLive false f = t.followInc := by
  rw [State.applyLive_foreign h, ht]
  rfl

end Sys2Proof.Machine
end

section
/-! The slots that a table frame changes in a lawful entry (R1, R2, R10), and what the table frames of other stations do
(R6, R7, R12 to R23, R28). -/

namespace Sys2Proof

namespace Machine

/-! ## The slots changed -/

/-- The slots changed are of different stations, where it matters (R2): none is created twice, and the one removed is not
created again. -/
structure SlotChanges.Apart (c : SlotChanges) : Prop where
  created : (c.created.map Prod.fst).Nodup
  removed : ∀ v, c.removed = some v → ∀ x ∈ c.created, x.1 ≠ v

theorem grantSlots_stations {e : Entry} {ws : List Waiter} :
    (grantSlots (promoteFrom ws e).2).map Prod.fst <+: ws.map Waiter.station := by
  have hmap : (grantSlots (promoteFrom ws e).2).map Prod.fst
      = ((promoteFrom ws e).2.map (fun g => (⟨g.station, g.mode⟩ : Waiter))).map Waiter.station := by
    simp only [grantSlots, List.map_map]
    rfl
  rw [hmap]
  exact (promoteFrom_grantees ws e).map _

end Machine

open Machine in
/-- A promotion creates slots of different stations, all of which waited. -/
theorem Entry.Promotable.created_nodup {e : Entry} (h : e.Promotable e.waiters) :
    ((grantSlots e.promote.2).map Prod.fst).Nodup := grantSlots_stations.sublist.nodup h.nodup

open Machine in
theorem Entry.promote_created {e : Entry} {x : Station × Word16} (h : x ∈ grantSlots e.promote.2) :
    ∃ w ∈ e.waiters, w.station = x.1 :=
  List.mem_map.mp (grantSlots_stations.subset (List.mem_map_of_mem h))

theorem Entry.holds_of_holdsAt {e : Entry} {v : Station} {g : Word16} (h : e.holdsAt v g = true) : e.holds v = true := by
  obtain ⟨y, hy, hyv⟩ := List.any_eq_true.mp h
  exact List.any_eq_true.mpr ⟨y, hy, (Bool.and_eq_true_iff.mp hyv).1⟩

namespace Machine

theorem SlotChanges.Apart.none : SlotChanges.none.Apart := ⟨List.nodup_nil, nofun⟩

/-- A holder's slot goes, and promotion runs. -/
theorem SlotChanges.Apart.dropHolder {e : Entry} (h : e.consistent = true) {v : Station} (hv : e.holds v = true) :
    SlotChanges.Apart { removed := some v, renewed := Option.none, created := grantSlots (e.dropHolder v).promote.2 } := by
  have hp := Entry.Promotable.of_consistent h
  refine ⟨(hp.dropHolder v).created_nodup, fun u hu x hx hxu => ?_⟩
  obtain ⟨w, hw, hws⟩ := Entry.promote_created hx
  obtain ⟨y, hy, hyv⟩ := List.any_eq_true.mp hv
  have huv : v = u := Option.some.inj hu
  exact hp.apart y hy w hw (by rw [hws, hxu, ← huv, beq_iff_eq.mp hyv])

theorem slotChanges_apart {e : Entry} (h : e.consistent = true) (v : Station) (b : Body) : (slotChanges e v b).Apart := by
  rcases b with ⟨r, m, w, t⟩ | ⟨r, t⟩ | r | ⟨r, t⟩ | ⟨r, u, g⟩ | ⟨d, a⟩ | _ | _ | ⟨u, i⟩ | _ | ⟨u, a⟩ | ⟨u, a, t, p⟩
  case claim =>
    refine ⟨?_, nofun⟩
    simp only [slotChanges]
    split
    · exact List.pairwise_singleton _ v
    · exact List.nodup_nil
  case release =>
    rcases hh : e.holds v with _ | _
    · rw [(Misses.release hh r t).2]
      exact .none
    · simp only [slotChanges, tableRule, hh, if_true]
      exact SlotChanges.Apart.dropHolder h hh
  case withdraw =>
    rcases hh : e.waits v with _ | _
    · rw [(Misses.withdraw hh r t).2]
      exact .none
    · refine ⟨?_, nofun⟩
      simp only [slotChanges, tableRule, hh, if_true]
      exact ((Entry.Promotable.of_consistent h).dropWaiter v).created_nodup
  case expire =>
    rcases hh : e.holdsAt u g with _ | _
    · rw [(Misses.expire hh v r).2]
      exact .none
    · simp only [slotChanges, tableRule, hh, if_true]
      exact SlotChanges.Apart.dropHolder h (Entry.holds_of_holdsAt hh)
  case renew => exact ⟨List.nodup_nil, nofun⟩
  all_goals exact .none

theorem slotChanges_renewed (e : Entry) {v own : Station} (b : Body) (h : v ≠ own) :
    (slotChanges e v b).renewed ≠ some own := by
  rcases b with ⟨r, m, w, t⟩ | ⟨r, t⟩ | r | ⟨r, t⟩ | ⟨r, u, g⟩ | ⟨d, a⟩ | _ | _ | ⟨u, i⟩ | _ | ⟨u, a⟩ | ⟨u, a, t, p⟩
  case renew =>
    simp only [slotChanges]
    split
    · simpa using h
    · exact nofun
  all_goals exact nofun

/-! ## The frames of other stations -/

/-- A table frame of another station, of a valid actor or a stray. -/
theorem State.applyRule_table {s : State} {f : Frame} {r : Resource} (hq : s.lu.sending = false) (live : Bool)
    (hr : tableResource f.body = some r) (hs : f.sender ≠ s.own) :
    ∃ l, s.applyRule live false f = ({ s.tableApplied f r
      (if s.validActor f then tableRule s.replica.entries[r] f.sender f.body else (s.replica.entries[r], []))
      (if s.validActor f then slotChanges s.replica.entries[r] f.sender f.body else SlotChanges.none) with
        lu := { s.lu with current := l } }, Report.nothing) := by
  rcases hv : s.validActor f with _ | _
  · exact ⟨s.lu.current, State.applyRule_table_stray live hr hv⟩
  · exact State.applyRule_table_valid hq live hr hs hv

theorem isState_of_tableResource {b : Body} {r : Resource} (h : tableResource b = some r) : b.isState = true := by
  cases b
  case claim | release | renew | withdraw | expire => rfl
  all_goals exact nomatch h

theorem verdictKept_of_heard (xs : List VerdictItem) (own v : Station) (r : Resource) (c : SlotChanges) (heard : Bool) :
    (if heard then xs.filter (fun x => !Verdict.evicts v x.verdict) else xs).filter (fun i => verdictKept own r c i.verdict)
      = xs.filter (fun i => match i.verdict with
        | .evict u _ => !(heard && u == v)
        | .expire r' u _ => !(r' == r && u != own && (c.removed == some u || c.renewed == some u))) := by
  rcases heard with _ | _
  · refine List.filter_congr (fun i _ => ?_)
    rcases i.verdict with ⟨r', u, g⟩ | ⟨u, i⟩ <;> rfl
  · refine Eq.trans List.filter_filter (List.filter_congr (fun i _ => ?_))
    rcases i.verdict with ⟨r', u, g⟩ | ⟨u, i⟩
    · simp [Verdict.evicts, verdictKept]
    · simp [Verdict.evicts, verdictKept]

/-- Settles O37: the frame applied in step after its sender has been heard, by `TimerUnit.follows_eq` where the entry is
lawful. -/
theorem acceptedTableFrameActs : Obligations.AcceptedTableFrameActs := by
  intro s f r act c valid heard hh hsender hlive hr hstep hvalid hact hc hheard
  have hexec := hh.exec_handOn hsender
  have hq : ((s.heard f).inStep f).lu.sending = false := hh.not_sending
  obtain ⟨l, happ⟩ := State.applyRule_table hq true hr hsender
  have hv : ((s.heard f).inStep f).validActor f = valid := hvalid.symm
  have hc' : c = if valid then slotChanges s.replica.entries[r] f.sender f.body else SlotChanges.none := hc
  have hapart : s.replica.entries[r].consistent = true → c.Apart := fun hcon => by
    rw [hc']
    split
    · exact slotChanges_apart hcon _ _
    · exact .none
  have hren : c.renewed ≠ some s.own := by
    rw [hc']
    split
    · exact slotChanges_renewed _ _ hsender
    · exact nofun
  have hloss : State.tableLoss ((s.heard f).inStep f) valid r f.body = s.tableLoss valid r f.body := by
    cases f.body <;> rfl
  rw [hv] at happ
  replace happ : ((s.heard f).inStep f).applyRule true false f = ({ ((s.heard f).inStep f).tableApplied f r act c with
      lu := { (s.heard f).lu with current := l } }, Report.nothing) := by
    rw [hact, hc']
    exact happ
  rw [State.handOn_live_state (by exact hlive) (isState_of_tableResource hr),
    State.applyLive_foreign_nothing (by exact hstep) happ] at hexec
  have hs := State.settle_settlesTo (State.followInc { ((s.heard f).inStep f).tableApplied f r act c with
    lu := { (s.heard f).lu with current := l } })
  have helse := SameElsewhere.follows (s.heard f).tu s.own s.kp.permit.isLapsed s.sc.station.isLeaving r c
    (s.replica.entries[r].gen + 1)
  generalize State.settle _ = t at hexec hs
  refine ⟨t, hexec, hs.replica, ?notes, hs.sc, hs.requests, hs.config, hs.tm, hs.kp, hs.cause, hs.power, hs.gou_maps,
    hs.port, hs.response, ?holds, ?expiry, ?surrender, hs.lu_but_tx rfl, fun hcon => ?timer⟩
  case notes =>
    have hnotes := hs.notes (n := s.nu) (xs := s.tableLoss valid r f.body ++ s.grantNotes r act.2) (by
      rw [← hloss, ← hv]
      rfl)
    rw [hnotes]
    refine congrArg (fun xs => s.nu.arriveAll (xs ++ s.grantNotes r act.2)) ?_
    generalize f.body = b
    cases b <;> rfl
  case holds =>
    rw [hs.holds, List.filter_map]
    exact congrArg (List.map t.withRenewal) helse.holds
  case expiry =>
    rw [hs.tu_expiry]
    exact helse.expiry
  case surrender =>
    rw [hs.tu_surrender]
    exact helse.surrender
  case timer =>
    have hapart' := hapart hcon
    have hfollows := (s.heard f).tu.follows_eq s.kp.permit.isLapsed s.sc.station.isLeaving r (s.replica.entries[r].gen + 1)
      hapart'.created hren hapart'.removed
    have htu : t.tu = { (s.heard f).tu.follows s.own s.kp.permit.isLapsed s.sc.station.isLeaving r c
        (s.replica.entries[r].gen + 1) with holds := t.tu.holds } := hs.tu_but_holds
    have hholds : t.tu.holds = ((s.heard f).tu.follows s.own s.kp.permit.isLapsed s.sc.station.isLeaving r c
        (s.replica.entries[r].gen + 1)).holds.map t.withRenewal := hs.holds
    rw [htu, hholds, hfollows]
    simp only [State.heard, verdictKept_of_heard, hheard] <;> rfl

end Machine

end Sys2Proof
end

section
/-! The application of an own frame while the replica is live (R6, R8, R91, R98), and the own CLAIM (R12 to R15, R145,
R170). -/

namespace Sys2Proof.Machine

/-! ## Own frames that are applied -/

/-- The sources whose frames leave them by what their application does (R91). -/
def Source.applied : Source → Bool
  | .renew _ | .verdict _ | .surrender _ | .host _ => true
  | .control _ | .segment _ | .presence => false

/-- This station with its line unit and presence timer after an own frame has been accepted (R91, R97, R117). -/
def State.ownTaken (s : State) : State :=
  { s with lu := s.lineAfterOwn, tu := { s.tu with presenceTimer := s.tu.presenceTimer.map (fun _ => 0) } }

theorem State.ownLeft_applied {s : State} {a : Attempt} (h : a.source.applied = true) : s.ownLeft a = s.ownTaken := by
  have hstays : ∀ x : State, x.ownFrameLeaves a = x := fun x => by
    unfold State.ownFrameLeaves
    split
    · rfl
    · split
      all_goals simp_all [Source.applied]
  rw [State.ownLeft, hstays]
  rfl

theorem State.sent.exec_applied {s : State} {a : Attempt} (h : s.sent a) (hsrc : a.source.applied = true)
    (hlive : s.sc.station.live = true) (hstate : a.frame.body.isState = true) :
    Machine.exec (.frameAccepted .own) s = .next (s.ownTaken.applyLive true a.frame).settle := by
  rw [h.exec, State.ownLeft_applied hsrc, State.handOn_live_state (by exact hlive) hstate]

theorem exists_settled {o : Answer} {e : State} (h : o = .next e.settle) : ∃ t, o = .next t ∧ SettlesTo e t :=
  ⟨_, h, State.settle_settlesTo e⟩

/-! ## Requests -/

/-- DONE of the request with a tag, if a record has it (R170). -/
def State.doneNotes (s : State) (t : Fin 16) (o : ReqOutcome) : List Note :=
  match s.requests.find? (fun q => q.tag == t) with
  | some q => [.done t o q.r]
  | none => []

theorem State.doneNotes_some (s : State) {t : Fin 16} {q : Request} (o : ReqOutcome)
    (h : s.requests.find? (fun q => q.tag == t) = some q) : s.doneNotes t o = [.done t o q.r] := by
  rw [State.doneNotes, h]

theorem State.doneNotes_none (s : State) {t : Fin 16} (o : ReqOutcome)
    (h : s.requests.find? (fun q => q.tag == t) = none) : s.doneNotes t o = [] := by
  rw [State.doneNotes, h]

theorem State.completeRequest_eq (s : State) (t : Fin 16) (o : ReqOutcome) :
    s.completeRequest t o = { s with
      requests := s.requests.filter (fun q => q.tag != t), nu := s.nu.arriveAll (s.doneNotes t o) } := by
  rcases h : s.requests.find? (fun q => q.tag == t) with _ | q
  · have hall : s.requests.filter (fun q => q.tag != t) = s.requests :=
      List.filter_eq_self.mpr (fun q hq => by simpa using List.find?_eq_none.mp h q hq)
    rw [State.completeRequest_absent s t o h, hall, s.doneNotes_none o h]
    rfl
  · rw [State.completeRequest_found s t o q h, s.doneNotes_some o h]
    rfl

/-! ## The own CLAIM -/

/-- The Timer Unit after an own CLAIM decided so (R108, R122, R145). -/
def TimerUnit.claimed (u : TimerUnit) (own : Station) (lapsed : Bool) (r : Resource) (g : Word16) : ClaimResult → TimerUnit
  | .granted => u.slotCreated own lapsed r own g
  | .waiting =>
    { u with
      surrender := if lapsed && !u.surrender.any (fun m => m.r == r)
        then insertSurrender { r := r, mark := .wait, count := 0 } u.surrender else u.surrender }
  | .refusedHeld | .refusedWaiting | .refusedBusy | .refusedFull => u

theorem mem_insertHold (x : OwnHold) (xs : List OwnHold) : x ∈ insertHold x xs := by
  induction xs with
  | nil => exact List.mem_singleton_self x
  | cons y ys ih =>
    unfold insertHold
    split
    · exact List.mem_cons_self
    · exact List.mem_cons_of_mem _ ih

theorem insertSurrender_any (x : SurrenderItem) (xs : List SurrenderItem) (r : Resource) (h : x.r = r) :
    (insertSurrender x xs).any (fun m => m.r == r) = true :=
  List.any_eq_true.mpr ⟨x, (insertSurrender_mem x x xs).mpr (Or.inl rfl), beq_iff_eq.mpr h⟩

theorem insertSurrender_enters {x : SurrenderItem} {r : Resource} (h : x.r = r) (xs : List SurrenderItem) :
    (if !xs.any (fun m => m.r == r) then insertSurrender x xs else xs).any (fun m => m.r == r) = true := by
  rcases hx : xs.any (fun m => m.r == r) with _ | _
  · exact insertSurrender_any x xs r h
  · exact hx

/-- While the permit is LAPSED the resource is in the surrender set, once granted or waited for. -/
theorem TimerUnit.claimed_surrenders (u : TimerUnit) (own : Station) (r : Resource) (g : Word16) {d : ClaimResult}
    (h : d = .granted ∨ d = .waiting) :
    (u.claimed own true r g d).surrender.any (fun m => m.r == r) = true := by
  rcases h with rfl | rfl
  · simp only [TimerUnit.claimed, TimerUnit.slotCreated, if_true, Bool.true_and]
    rcases hx : u.surrender.any (fun m => m.r == r) with _ | _
    · exact insertSurrender_any _ _ _ rfl
    · refine Eq.trans ?_ hx
      simp only [Bool.not_true, Bool.false_eq_true, if_false, List.any_map]
      congr 1
      funext m
      simp only [Function.comp_apply]
      split <;> rfl
  · exact insertSurrender_enters (x := { r := r, mark := .wait, count := 0 }) rfl u.surrender

theorem TimerUnit.claimed_expiry (u : TimerUnit) (own : Station) (lapsed : Bool) (r : Resource) (g : Word16)
    (d : ClaimResult) : (u.claimed own lapsed r g d).expiry = u.expiry := by
  rcases d with _ | _ | _ | _ | _ | _
  case granted => simp only [TimerUnit.claimed, TimerUnit.slotCreated, if_true]
  all_goals rfl

theorem TimerUnit.claimed_presenceTimer (u : TimerUnit) (own : Station) (lapsed : Bool) (r : Resource) (g : Word16)
    (d : ClaimResult) : (u.claimed own lapsed r g d).presenceTimer = u.presenceTimer := by
  rcases d with _ | _ | _ | _ | _ | _
  case granted => simp only [TimerUnit.claimed, TimerUnit.slotCreated, if_true]
  all_goals rfl

theorem TimerUnit.claimed_holds_granted (u : TimerUnit) (own : Station) (lapsed : Bool) (r : Resource) (g : Word16) :
    (u.claimed own lapsed r g .granted).holds
      = insertHold { r := r, gen := g, elapsed := 0, running := true, lapsed := false, renewal := .idle }
        (u.holds.filter (fun h => h.r != r)) := by
  simp only [TimerUnit.claimed, TimerUnit.slotCreated, if_true]

theorem TimerUnit.claimed_holds_other (u : TimerUnit) (own : Station) (lapsed : Bool) (r : Resource) (g : Word16)
    {d : ClaimResult} (h : d ≠ .granted) : (u.claimed own lapsed r g d).holds = u.holds := by
  rcases d with _ | _ | _ | _ | _ | _
  case granted => exact absurd rfl h
  all_goals rfl

theorem State.claimRule_own (s : State) (r : Resource) (m : LeaseMode) (w : Bool) :
    s.claimRule s.own r m w = ({ s with
      replica := { s.replica with entries := s.replica.entries.set r.val (s.replica.entries[r].claim s.own m w) }
      tu := s.tu.claimed s.own s.kp.permit.isLapsed r (s.replica.entries[r].gen + 1)
        (s.replica.entries[r].decideClaim s.own m w) },
      claimOutcome s.replica.entries[r] s.own m w) := by
  rw [State.claimRule_eq]
  refine congrArg (fun u => (({ s with
      replica := { s.replica with entries := s.replica.entries.set r.val (s.replica.entries[r].claim s.own m w) }
      tu := u } : State), claimOutcome s.replica.entries[r] s.own m w)) ?_
  rcases s.replica.entries[r].decideClaim s.own m w with _ | _ | _ | _ | _ | _
  case waiting =>
    simp only [TimerUnit.claimed, true_and, State.surrendering, Bool.and_eq_true, Bool.not_eq_true', Bool.not_eq_true]
  all_goals rfl

/-- The own CLAIM of a valid actor, or a stray. -/
theorem State.applyRule_ownClaim {s : State} {f : Frame} {r : Resource} {m : LeaseMode} {w : Bool} {tag : Fin 16}
    (hs : f.sender = s.own) (hb : f.body = .claim r m w (.host tag)) :
    s.applyRule true true f = ({ s with
      replica := { s.replica with
        entries := if s.validActor f then s.replica.entries.set r.val (s.replica.entries[r].claim s.own m w)
          else s.replica.entries
        tsn := s.replica.tsn + 1 }
      tu := if s.validActor f then s.tu.claimed s.own s.kp.permit.isLapsed r (s.replica.entries[r].gen + 1)
        (s.replica.entries[r].decideClaim s.own m w) else s.tu
      requests := s.requests.filter (fun q => q.tag != tag)
      nu := s.nu.arriveAll (s.doneNotes tag
        (if s.validActor f then claimOutcome s.replica.entries[r] s.own m w else .stray)) }, Report.nothing) := by
  rw [State.applyRule, hb]
  rcases hv : s.validActor f with _ | _
  · simp only [Bool.false_eq_true, if_false, if_true, State.deliver, State.completeRequest_eq]
    rfl
  · simp only [if_true, State.deliver, State.completeRequest_eq, hs, State.claimRule_own]
    rfl

/-- Settles O38: the own CLAIM of a valid actor, decided by R12, and a stray. -/
theorem ownClaimCompletes : Obligations.OwnClaimCompletes := by
  intro s a tag r m w valid hsent hsrc hlive hsender hbody hvalid
  have hexec := hsent.exec_applied (by rw [hsrc]; rfl) hlive (by rw [hbody]; rfl)
  have hv : s.ownTaken.validActor a.frame = valid := by
    rw [hvalid, State.validActor, hsender]
    rfl
  rw [State.applyLive_own_nothing (State.applyRule_ownClaim (by exact hsender) hbody), hv] at hexec
  obtain ⟨t, hexec, hs⟩ := exists_settled (e := State.followInc { s.ownTaken with
      replica := { s.replica with
        entries := if valid then s.replica.entries.set r.val (s.replica.entries[r].claim s.own m w)
          else s.replica.entries
        tsn := s.replica.tsn + 1 }
      tu := if valid then s.ownTaken.tu.claimed s.own s.kp.permit.isLapsed r (s.replica.entries[r].gen + 1)
        (s.replica.entries[r].decideClaim s.own m w) else s.ownTaken.tu
      requests := s.requests.filter (fun q => q.tag != tag)
      nu := s.nu.arriveAll (s.doneNotes tag
        (if valid then claimOutcome s.replica.entries[r] s.own m w else .stray)) }) hexec
  have hnotes := hs.notes (n := s.nu) rfl
  rw [State.doneNotes] at hnotes
  refine ⟨t, hexec, hs.replica, hs.requests, hnotes, fun h hg => ?granted, fun h => ?other, fun h hl hg => ?holding,
    fun h hl hw => ?waiting, fun h => ?stray, hs.current_none rfl, hs.lu_vetoCount, ?timer, ?inc, hs.config, hs.tm, hs.kp, hs.cause,
    hs.power, hs.gou_maps, ?expiry⟩
  case granted =>
    have hholds : t.tu.holds = (insertHold
        { r := r, gen := s.replica.entries[r].gen + 1, elapsed := 0, running := true, lapsed := false, renewal := .idle }
        (s.tu.holds.filter (fun h => h.r != r))).map t.withRenewal := by
      refine hs.holds.trans (congrArg (List.map t.withRenewal) ?_)
      simp only [State.followInc, h, if_true, hg, TimerUnit.claimed_holds_granted]
      rfl
    refine ⟨hholds, t.withRenewal ⟨r, s.replica.entries[r].gen + 1, 0, true, false, .idle⟩, ?_, rfl, rfl, rfl, rfl, rfl⟩
    rw [hholds]
    exact List.mem_map_of_mem (mem_insertHold _ _)
  case other =>
    refine hs.holds.trans (congrArg (List.map t.withRenewal) ?_)
    simp only [State.followInc]
    rcases h with h | h
    · rw [h]
      rfl
    · split
      · exact TimerUnit.claimed_holds_other _ _ _ _ _ h
      · rfl
  case holding =>
    rw [State.surrendering, hs.tu_surrender]
    simp only [State.followInc, h, if_true, hl]
    exact TimerUnit.claimed_surrenders _ _ _ _ (Or.inl hg)
  case waiting =>
    rw [State.surrendering, hs.tu_surrender]
    simp only [State.followInc, h, if_true, hl]
    exact TimerUnit.claimed_surrenders _ _ _ _ (Or.inr hw)
  case stray =>
    rw [hs.tu_surrender]
    simp only [State.followInc, h, Bool.false_eq_true, if_false]
    rfl
  case timer =>
    rw [hs.tu_presenceTimer]
    simp only [State.followInc]
    split
    · exact TimerUnit.claimed_presenceTimer ..
    · rfl
  case inc => exact hs.sc
  case expiry =>
    rw [hs.tu_expiry]
    simp only [State.followInc]
    split
    · exact TimerUnit.claimed_expiry ..
    · rfl

end Sys2Proof.Machine
end

section
/-! The own RELEASE and WITHDRAW (R16, R17, R20, R21, R30, R124, R170). -/

namespace Sys2Proof.Machine

/-! ## Where the outcome goes -/

/-- The request queue after the outcome of a frame with this tag (R8, R170). -/
def requestsAfter (qs : List Request) : Tag → List Request
  | .host t => qs.filter (fun q => q.tag != t)
  | .surrender => qs

/-- The surrender set after the outcome of a RELEASE or WITHDRAW with this tag (R124). -/
def surrendersAfter (ms : List SurrenderItem) (r : Resource) : Tag → List SurrenderItem
  | .host _ => ms
  | .surrender => ms.filter (fun m => m.r != r)

/-- The record that an outcome produces (R8, R170). -/
def State.outcomeNotes (s : State) (o : ReqOutcome) : Tag → List Note
  | .host t => s.doneNotes t o
  | .surrender => []

theorem State.deliver_removal (s : State) (tag : Tag) (r : Resource) (o : ReqOutcome) :
    ∃ l, s.deliver tag r false o = { s with
      requests := requestsAfter s.requests tag, tu := { s.tu with surrender := surrendersAfter s.tu.surrender r tag }
      lu := { s.lu with current := l }, nu := s.nu.arriveAll (s.outcomeNotes o tag) } := by
  rcases tag with t | _
  · exact ⟨s.lu.current, s.completeRequest_eq t o⟩
  · exact ⟨_, State.surrenderRemove_form s r⟩

/-! ## The removal -/

/-- What is told of a surrender, unless its hold had lapsed (R17, R21). -/
def State.surrenderTold (s : State) (release : Bool) (tag : Tag) (r : Resource) (hit : Bool) : List Note :=
  if tag = .surrender ∧ hit = true then
    (if release then (if s.lapsedMark r then [] else [.lost r .surrendered]) else [.waitEnded r])
  else []

/-- The outcome of a RELEASE or WITHDRAW (R7, R16, R20). -/
def removalOutcome (valid release hit : Bool) : ReqOutcome :=
  if valid then
    if release then (if hit then .released else .notHolder) else (if hit then .withdrawn else .notWaiting)
  else .stray

/-- The Timer Unit after the removal of this station's slot or waiter with the promotion that follows (R28). -/
def TimerUnit.ownRemoved (u : TimerUnit) (own : Station) (lapsed : Bool) (r : Resource) (release hit : Bool)
    (gs : List Grant) : TimerUnit :=
  if hit then (if release then u.slotRemoved own r own else u).slotsCreated own lapsed r (grantSlots gs) else u

/-- What an own RELEASE or WITHDRAW makes of the state, the current attempt aside: `act` of the entry, `hit` where there
was a slot or a waiter to remove. -/
def State.removalApplied (s : State) (r : Resource) (tag : Tag) (valid release hit : Bool) (act : Entry × List Grant) :
    State :=
  { s with
    replica := { s.replica with
      entries := if valid then s.replica.entries.set r.val act.1 else s.replica.entries, tsn := s.replica.tsn + 1 }
    tu := { s.tu.ownRemoved s.own s.kp.permit.isLapsed r release hit act.2 with
      surrender := surrendersAfter (s.tu.ownRemoved s.own s.kp.permit.isLapsed r release hit act.2).surrender r tag }
    requests := requestsAfter s.requests tag
    nu := s.nu.arriveAll (s.surrenderTold release tag r hit ++ (if valid then s.grantNotes r act.2 else [])
      ++ s.outcomeNotes (removalOutcome valid release hit) tag) }

theorem State.surrenderTold_missed (s : State) (release : Bool) (tag : Tag) (r : Resource) :
    s.surrenderTold release tag r false = [] := if_neg (fun h => nomatch h.2)

/-- A removal that misses, whose entry is therefore as it was. -/
theorem State.removalApplied_missed {s : State} {r : Resource} {tag : Tag} {valid release : Bool}
    {act : Entry × List Grant} (h : valid = true → act = (s.replica.entries[r], [])) {o : ReqOutcome}
    (ho : o = removalOutcome valid release false) :
    ∃ l, s.advanceTsn.deliver tag r false o
      = { s.removalApplied r tag valid release false act with lu := { s.lu with current := l } } := by
  obtain ⟨l, hl⟩ := s.advanceTsn.deliver_removal tag r o
  refine ⟨l, ?_⟩
  rw [hl, ho, State.removalApplied, State.surrenderTold_missed]
  rcases valid with _ | _
  · rfl
  · have hset : s.replica.entries.set r.val s.replica.entries[r] = s.replica.entries := Vector.set_getElem_self ..
    rw [h rfl, hset]
    rfl

/-- A removal that hits, `x` being the state after the removal and the promotion. -/
theorem State.removalApplied_hit {s x : State} {r : Resource} {tag : Tag} {release : Bool} {act : Entry × List Grant}
    {o : ReqOutcome} (hx : ∃ l, x = { s with
      lu := { s.lu with current := l }
      replica := { s.replica with entries := s.replica.entries.set r.val act.1 }
      tu := s.tu.ownRemoved s.own s.kp.permit.isLapsed r release true act.2
      nu := s.nu.arriveAll (s.surrenderTold release tag r true ++ s.grantNotes r act.2) })
    (ho : o = removalOutcome true release true) :
    ∃ l, x.advanceTsn.deliver tag r false o
      = { s.removalApplied r tag true release true act with lu := { s.lu with current := l } } := by
  obtain ⟨l, rfl⟩ := hx
  obtain ⟨l', hl'⟩ := State.deliver_removal (State.advanceTsn { s with
    lu := { s.lu with current := l }
    replica := { s.replica with entries := s.replica.entries.set r.val act.1 }
    tu := s.tu.ownRemoved s.own s.kp.permit.isLapsed r release true act.2
    nu := s.nu.arriveAll (s.surrenderTold release tag r true ++ s.grantNotes r act.2) }) tag r o
  refine ⟨l', hl'.trans ?_⟩
  rw [ho, State.removalApplied, if_pos rfl, if_pos rfl,
    NoteUnit.arriveAll_append (s.surrenderTold release tag r true ++ s.grantNotes r act.2)]
  rfl

/-- The own RELEASE (R16, R17). -/
theorem State.applyRule_ownRelease {s : State} {f : Frame} {r : Resource} {tag : Tag} (hq : s.lu.sending = false)
    (hs : f.sender = s.own) (hb : f.body = .release r tag) :
    ∃ l, s.applyRule true true f = ({ s.removalApplied r tag (s.validActor f) true (s.validActor f && s.holdsOwn r)
      (tableRule s.replica.entries[r] s.own f.body) with lu := { s.lu with current := l } }, Report.nothing) := by
  rw [State.applyRule]
  simp only [hb, hs, if_true]
  rcases hv : s.validActor f with _ | _
  · obtain ⟨l, hl⟩ := s.removalApplied_missed (r := r) (tag := tag) (valid := false) (release := true)
      (act := tableRule s.replica.entries[r] s.own (.release r tag)) nofun rfl
    exact ⟨l, congrArg (·, Report.nothing) hl⟩
  · rcases hh : s.replica.entries[r].holds s.own with _ | _
    · have hown : s.holdsOwn r = false := hh
      obtain ⟨l, hl⟩ := s.removalApplied_missed (r := r) (tag := tag) (valid := true) (release := true)
        (act := tableRule s.replica.entries[r] s.own (.release r tag)) (fun _ => (Misses.release hh r tag).1) rfl
      simp only [if_true, State.releaseRule_misses true tag hh, hown, Bool.and_false]
      exact ⟨l, congrArg (·, Report.nothing) hl⟩
    · have hown : s.holdsOwn r = true := hh
      have htold : (if True ∧ tag = .surrender ∧ ¬ s.lapsedMark r then [Note.lost r .surrendered] else [])
          = s.surrenderTold true tag r true := by
        rw [State.surrenderTold]
        rcases tag with _ | _ <;> rcases s.lapsedMark r <;> rfl
      obtain ⟨l, hl⟩ := State.releaseRule_holds hq true tag hh
      obtain ⟨l', hl'⟩ := State.removalApplied_hit (s := s) (x := (s.releaseRule true s.own r tag).1) (r := r) (tag := tag)
        (release := true) (act := tableRule s.replica.entries[r] s.own (.release r tag)) ⟨l, by
          rw [hl, ← htold]
          simp only [tableRule, hh, if_true]
          rfl⟩ rfl
      have hout : (s.releaseRule true s.own r tag).2 = .released := congrArg Prod.snd hl
      simp only [if_true, hout, hown, Bool.and_self]
      exact ⟨l', congrArg (·, Report.nothing) hl'⟩

/-- The own WITHDRAW (R20, R21). -/
theorem State.applyRule_ownWithdraw {s : State} {f : Frame} {r : Resource} {tag : Tag}
    (hs : f.sender = s.own) (hb : f.body = .withdraw r tag) :
    ∃ l, s.applyRule true true f = ({ s.removalApplied r tag (s.validActor f) false (s.validActor f && s.waitsOwn r)
      (tableRule s.replica.entries[r] s.own f.body) with lu := { s.lu with current := l } }, Report.nothing) := by
  rw [State.applyRule]
  simp only [hb, hs, if_true]
  rcases hv : s.validActor f with _ | _
  · obtain ⟨l, hl⟩ := s.removalApplied_missed (r := r) (tag := tag) (valid := false) (release := false)
      (act := tableRule s.replica.entries[r] s.own (.withdraw r tag)) nofun rfl
    exact ⟨l, congrArg (·, Report.nothing) hl⟩
  · rcases hh : s.replica.entries[r].waits s.own with _ | _
    · have hown : s.waitsOwn r = false := hh
      obtain ⟨l, hl⟩ := s.removalApplied_missed (r := r) (tag := tag) (valid := true) (release := false)
        (act := tableRule s.replica.entries[r] s.own (.withdraw r tag)) (fun _ => (Misses.withdraw hh r tag).1) rfl
      simp only [if_true, State.withdrawRule_misses true tag hh, hown, Bool.and_false]
      exact ⟨l, congrArg (·, Report.nothing) hl⟩
    · have hown : s.waitsOwn r = true := hh
      have htold : (if True ∧ tag = .surrender then [Note.waitEnded r] else []) = s.surrenderTold false tag r true := by
        rw [State.surrenderTold]
        rcases tag with _ | _ <;> rfl
      have hl := State.withdrawRule_waits true tag hh
      obtain ⟨l', hl'⟩ := State.removalApplied_hit (s := s) (x := (s.withdrawRule true s.own r tag).1) (r := r)
        (tag := tag) (release := false) (act := tableRule s.replica.entries[r] s.own (.withdraw r tag))
        ⟨s.lu.current, by
          rw [hl, ← htold]
          simp only [tableRule, hh, if_true]
          rfl⟩ rfl
      have hout : (s.withdrawRule true s.own r tag).2 = .withdrawn := congrArg Prod.snd hl
      simp only [if_true, hout, hown, Bool.and_self]
      exact ⟨l', congrArg (·, Report.nothing) hl'⟩

/-! ## The own-hold records -/

/-- Grants to others leave the own-hold records as they are. -/
theorem TimerUnit.slotsCreated_holds {own : Station} (lapsed : Bool) (r : Resource) (cs : List (Station × Word16))
    (h : ∀ x ∈ cs, x.1 ≠ own) : ∀ u : TimerUnit, (u.slotsCreated own lapsed r cs).holds = u.holds := by
  induction cs with
  | nil => exact fun _ => rfl
  | cons c cs ih =>
    intro u
    have hstep : u.slotsCreated own lapsed r (c :: cs) = (u.slotCreated own lapsed r c.1 c.2).slotsCreated own lapsed r cs :=
      rfl
    rw [hstep, ih (fun x hx => h x (List.mem_cons_of_mem _ hx)), TimerUnit.slotCreated,
      if_neg (h c List.mem_cons_self)]

theorem Entry.created_of_dropHolder {e : Entry} {v u : Station} (h : e.waits u = false) :
    ∀ x ∈ grantSlots (e.dropHolder v).promote.2, x.1 ≠ u := by
  intro x hx hxu
  obtain ⟨w, hw, hwx⟩ := Entry.promote_created hx
  exact List.any_eq_false.mp h w hw (beq_iff_eq.mpr (hwx.trans hxu))

theorem Entry.created_of_dropWaiter (e : Entry) (v : Station) : ∀ x ∈ grantSlots (e.dropWaiter v).promote.2, x.1 ≠ v := by
  intro x hx hxv
  obtain ⟨w, hw, hwx⟩ := Entry.promote_created hx
  have hne := (List.mem_filter.mp hw).2
  exact bne_iff_ne.mp hne (hwx.trans hxv)

theorem TimerUnit.ownRemoved_release_holds (u : TimerUnit) {own : Station} (lapsed : Bool) (r : Resource) {hit : Bool}
    {e : Entry} (tag : Tag) (h : e.waits own = false) :
    (u.ownRemoved own lapsed r true hit (tableRule e own (.release r tag)).2).holds
      = if hit then u.holds.filter (fun h => h.r != r) else u.holds := by
  rcases hit with _ | _
  · rfl
  · have hcreated : ∀ x ∈ grantSlots (tableRule e own (.release r tag)).2, x.1 ≠ own := by
      rcases hh : e.holds own with _ | _ <;> simp only [tableRule, hh, if_true, Bool.false_eq_true, if_false]
      · exact nofun
      · exact Entry.created_of_dropHolder h
    refine (TimerUnit.slotsCreated_holds lapsed r _ hcreated _).trans ?_
    simp only [if_true, TimerUnit.slotRemoved]

theorem TimerUnit.ownRemoved_withdraw_holds (u : TimerUnit) (own : Station) (lapsed : Bool) (r : Resource) (hit : Bool)
    (e : Entry) (tag : Tag) : (u.ownRemoved own lapsed r false hit (tableRule e own (.withdraw r tag)).2).holds = u.holds := by
  rcases hit with _ | _
  · rfl
  · have hcreated : ∀ x ∈ grantSlots (tableRule e own (.withdraw r tag)).2, x.1 ≠ own := by
      rcases hh : e.waits own with _ | _ <;> simp only [tableRule, hh, if_true, Bool.false_eq_true, if_false]
      · exact nofun
      · exact Entry.created_of_dropWaiter e own
    exact TimerUnit.slotsCreated_holds lapsed r _ hcreated _

/-! ## The obligation -/

/-- The own RELEASE or WITHDRAW. -/
theorem State.applyRule_ownRemoval {s : State} {f : Frame} {r : Resource} {tag : Tag} {release : Bool}
    (hq : s.lu.sending = false) (hs : f.sender = s.own)
    (hb : f.body = if release then .release r tag else .withdraw r tag) :
    ∃ l, s.applyRule true true f = ({ s.removalApplied r tag (s.validActor f) release
      (s.validActor f && if release then s.holdsOwn r else s.waitsOwn r)
      (tableRule s.replica.entries[r] s.own f.body) with lu := { s.lu with current := l } }, Report.nothing) := by
  rcases release with _ | _
  · exact State.applyRule_ownWithdraw hs hb
  · exact State.applyRule_ownRelease hq hs hb

/-- Settles O39: `State.removalApplied`, read off. -/
theorem ownRemovalApplied : Obligations.OwnRemovalApplied := by
  intro s a r tag release valid hit hsent hsrc hlive hsender hbody hvalid hhit
  have happlied : a.source.applied = true := by rw [hsrc]; cases tag <;> rfl
  have hstate : a.frame.body.isState = true := by rw [hbody]; cases release <;> rfl
  have hexec := hsent.exec_applied happlied hlive hstate
  have hv : s.ownTaken.validActor a.frame = valid := by
    rw [hvalid, State.validActor, hsender]
    rfl
  obtain ⟨l, happ⟩ := State.applyRule_ownRemoval (s := s.ownTaken) rfl hsender hbody
  have hhit' : (valid && if release then s.ownTaken.holdsOwn r else s.ownTaken.waitsOwn r) = hit := hhit.symm
  rw [State.applyLive_own_nothing happ, hv, hhit'] at hexec
  obtain ⟨t, hexec, hs⟩ := exists_settled hexec
  refine ⟨t, hexec, hs.replica, fun h => ⟨?set, ?same⟩, fun u h => ?queue, ?notes, fun hw => ?holds, hs.config, hs.tm,
    hs.kp, hs.sc⟩
  case set =>
    rw [State.surrendering, hs.tu_surrender]
    subst h
    exact List.any_eq_false.mpr (fun m hm => by simpa using (List.mem_filter.mp hm).2)
  case same =>
    subst h
    exact hs.requests
  case queue =>
    subst h
    exact hs.requests
  case notes =>
    refine (hs.notes (n := s.nu) rfl).trans (congrArg s.nu.arriveAll ?_)
    refine congr (congrArg List.append rfl) ?_
    rcases tag with u | _
    · rcases valid with _ | _
      · rfl
      · rcases release with _ | _ <;> rcases hit with _ | _ <;> rfl
    · rfl
  case holds =>
    refine hs.holds.trans (congrArg (List.map t.withRenewal) ?_)
    rcases release with _ | _
    · have hb : a.frame.body = .withdraw r tag := hbody
      rw [hb]
      exact TimerUnit.ownRemoved_withdraw_holds ..
    · have hb : a.frame.body = .release r tag := hbody
      rw [hb]
      refine (TimerUnit.ownRemoved_release_holds _ _ r tag (hw rfl)).trans ?_
      rcases hit with _ | _ <;> rfl

end Sys2Proof.Machine
end

section
/-! The own RENEW (R18, R19, R110). -/

namespace Sys2Proof.Machine

/-- The own-hold records after an own RENEW of `r`: `live` where the slot stands (R18, R19, R110). -/
def State.holdsRenewed (s : State) (r : Resource) (valid live : Bool) : List OwnHold :=
  if valid then
    if live then s.tu.holds.map (fun h =>
      if h.r = r then h.renewed (s.replica.entries[r].gen + 1) s.sc.station.isLeaving else h)
    else s.tu.holds.filter (fun h => h.r != r)
  else s.tu.holds.map (fun h => if h.r = r then { h with renewal := .barred } else h)

/-- The loss that a late RENEW tells (R19). -/
def State.lateTold (s : State) (r : Resource) : List Note :=
  match s.holdOf r with
  | some h => if h.lapsed then [] else [.lost r .expired]
  | none => []

theorem State.renewRule_late {s : State} {v : Station} {r : Resource} (h : s.replica.entries[r].holds v = false) :
    ∃ l, s.renewRule true v r = { s with
      lu := { s.lu with current := l }, tu := { s.tu with holds := s.tu.holds.filter (fun h => h.r != r) }
      nu := s.nu.arriveAll (s.lateTold r) } := by
  have hlate : s.renewRule true v r = (match s.holdOf r with
      | some h => if h.lapsed then s.closeHold r else (s.closeHold r).note (.lost r .expired)
      | none => s) := by
    rw [State.renewRule]
    exact (if_neg (by rw [State.entry, h]; simp)).trans rfl
  rw [hlate, State.lateTold]
  rcases hf : s.holdOf r with _ | x
  · have hall : s.tu.holds.filter (fun h => h.r != r) = s.tu.holds :=
      List.filter_eq_self.mpr (fun x hx => by simpa using List.find?_eq_none.mp hf x hx)
    exact ⟨s.lu.current, by rw [hall]; rfl⟩
  · obtain ⟨l, hl⟩ : ∃ l, s.closeHold r = { s with
        lu := { s.lu with current := l }, tu := { s.tu with holds := s.tu.holds.filter (fun h => h.r != r) } } := by
      rw [State.closeHold_eq, State.withdrawAttempt_eq]
      exact ⟨_, rfl⟩
    refine ⟨l, ?_⟩
    simp only [hl]
    rcases x.lapsed with _ | _
    · rfl
    · rfl

/-- What an own RENEW does. -/
theorem State.applyRule_ownRenew {s : State} {f : Frame} {r : Resource} (hq : s.lu.sending = false)
    (hs : f.sender = s.own) (hb : f.body = .renew r) :
    ∃ l, s.applyRule true true f = ({ s with
      lu := { s.lu with current := l }
      replica := { s.replica with
        tsn := s.replica.tsn + 1
        entries := if s.validActor f = true ∧ s.holdsOwn r = true then
          s.replica.entries.set r.val (s.replica.entries[r].renew s.own) else s.replica.entries }
      tu := { s.tu with holds := s.holdsRenewed r (s.validActor f) (s.holdsOwn r) }
      nu := s.nu.arriveAll (if s.validActor f = true ∧ s.holdsOwn r = false then s.lateTold r else []) },
      Report.nothing) := by
  rw [State.applyRule]
  simp only [hb, hs, true_and]
  rcases hv : s.validActor f with _ | _
  · exact ⟨s.lu.current, rfl⟩
  · rcases hh : s.replica.entries[r].holds s.own with _ | _
    · have hown : s.holdsOwn r = false := hh
      obtain ⟨l, hl⟩ := State.renewRule_late hh
      refine ⟨l, ?_⟩
      rw [hown, hl]
      rfl
    · have hown : s.holdsOwn r = true := hh
      refine ⟨s.lu.current, ?_⟩
      have htu : s.tu.slotRenewed s.own s.sc.station.isLeaving r s.own (s.replica.entries[r].gen + 1)
          = { s.tu with holds := s.holdsRenewed r true true } := if_pos rfl
      rw [hown, State.renewRule_holds hq true hh, htu]
      rfl

/-- Settles O40: an own RENEW applied, late, and a stray. -/
theorem ownRenewAccepted : Obligations.OwnRenewAccepted := by
  intro s a r valid hsent hsrc hbody hst hsender hvalid
  have hlive : s.sc.station.live = true := by rw [hst]; rfl
  have hleaving : s.sc.station.isLeaving = false := by rw [hst]; rfl
  have hexec := hsent.exec_applied (by rw [hsrc]; rfl) hlive (by rw [hbody]; rfl)
  have hv : s.ownTaken.validActor a.frame = valid := by
    rw [hvalid, State.validActor, hsender]
    rfl
  obtain ⟨l, happ⟩ := State.applyRule_ownRenew (s := s.ownTaken) rfl (by exact hsender) hbody
  rw [State.applyLive_own_nothing happ, hv] at hexec
  obtain ⟨t, hexec, hs⟩ := exists_settled hexec
  have hholds : t.tu.holds = (s.ownTaken.holdsRenewed r valid (s.holdsOwn r)).map t.withRenewal := hs.holds
  have hnotes : { t.nu with irq := s.nu.irq }
      = s.nu.arriveAll (if valid = true ∧ s.holdsOwn r = false then s.lateTold r else []) := hs.notes (n := s.nu) rfl
  refine ⟨t, hexec, hs.replica, hs.requests, hs.config, hs.tm, hs.kp, hs.sc, hs.tu_surrender, hs.tu_expiry,
    hs.tu_presence, fun h hh => ⟨?renewed, ?silent⟩, fun h hh => ⟨?closed, ?told⟩, fun h => ⟨?barred, ?stray⟩⟩
  case renewed =>
    have hmap : s.ownTaken.holdsRenewed r true true = s.tu.holds.map (fun h =>
        if h.r = r then h.renewed (s.replica.entries[r].gen + 1) false else h) := by
      rw [State.holdsRenewed, show s.ownTaken.sc.station.isLeaving = false from hleaving]
      rfl
    rw [hholds, h, hh, hmap, List.map_map]
    rfl
  case silent =>
    rw [hnotes, if_neg (by simp [hh])]
    rfl
  case closed =>
    rw [hholds, h, hh]
    rfl
  case told =>
    rw [hnotes, if_pos ⟨h, hh⟩, State.lateTold]
    rcases s.holdOf r with _ | x
    · rfl
    · dsimp only
      rcases x.lapsed with _ | _
      · rfl
      · rfl
  case barred =>
    rw [hholds, h, State.holdsRenewed, if_neg (by simp), List.map_map]
    rfl
  case stray =>
    rw [hnotes, if_neg (by simp [h])]
    rfl

end Sys2Proof.Machine
end

section
/-! The two passes of a removal over the lease table (R25, R28), and what they leave. -/

namespace Sys2Proof.Machine

/-! ## One entry of a pass -/

/-- A removal in entry `r` with its promotion: the entry, the Timer Unit, the current attempt's mark and the grants told;
`gone` where the watch on the slot of `v` is closed with it. -/
structure PassStep (v : Station) (gone : Prop) (s x : State) (r : Resource) (act : Entry × List Grant) : Prop where
  frame : ∃ tu l, x = { s with
    replica := { s.replica with entries := s.replica.entries.set r.val act.1 }
    tu := tu, lu := { s.lu with current := l }, nu := s.nu.arriveAll (s.grantNotes r act.2) }
  presence : x.tu.presence = s.tu.presence
  watches : (∀ g ∈ act.2, g.station ≠ v) → ∀ w ∈ x.tu.expiry, w.holder = v → w ∈ s.tu.expiry ∧ (gone → w.r ≠ r)

theorem TimerUnit.slotCreated_expiry_of_other {u : TimerUnit} {own : Station} {lapsed : Bool} {r : Resource} {v x : Station}
    {g : Word16} (hx : x ≠ v) {w : ExpiryWatch} (hw : w ∈ (u.slotCreated own lapsed r x g).expiry) (hv : w.holder = v) :
    w ∈ u.expiry := by
  unfold TimerUnit.slotCreated at hw
  by_cases ho : x = own
  · rwa [if_pos ho] at hw
  · rw [if_neg ho] at hw
    rcases List.mem_append.mp hw with h | h
    · exact (List.mem_filter.mp h).1
    · rw [List.mem_singleton.mp h] at hv
      exact absurd hv hx

theorem TimerUnit.slotsCreated_expiry_of_others {own : Station} {lapsed : Bool} {r : Resource} {v : Station}
    {w : ExpiryWatch} (hv : w.holder = v) (cs : List (Station × Word16)) : ∀ u : TimerUnit, (∀ c ∈ cs, c.1 ≠ v) →
    w ∈ (u.slotsCreated own lapsed r cs).expiry → w ∈ u.expiry := by
  induction cs with
  | nil => exact fun _ _ h => h
  | cons c cs ih =>
    intro u hc hw
    exact TimerUnit.slotCreated_expiry_of_other (hc c List.mem_cons_self)
      (ih _ (fun x hx => hc x (List.mem_cons_of_mem _ hx)) hw) hv

theorem grantSlots_others {gs : List Grant} {v : Station} (h : ∀ g ∈ gs, g.station ≠ v) : ∀ c ∈ grantSlots gs, c.1 ≠ v := by
  intro c hc
  obtain ⟨g, hg, rfl⟩ := List.mem_map.mp hc
  exact h g hg

/-- The holder pass at one entry. -/
theorem PassStep.holder {s : State} (hq : s.lu.sending = false) (v : Station) (r : Resource) :
    PassStep v (v ≠ s.own) s ((s.slotRemoved r v).promoteEntry r ((s.entry r).dropHolder v)) r
      (s.replica.entries[r].dropHolder v).promote := by
  obtain ⟨l, hl⟩ := s.slotRemoved_eq hq r v
  have hx := State.promoteEntry_eq (s.slotRemoved r v) r ((s.entry r).dropHolder v)
  rw [hl] at hx
  rw [hl, hx]
  refine ⟨⟨_, l, rfl⟩, ?_, fun hothers w hw hv => ?_⟩
  · refine (SameElsewhere.slotsCreated _ _ r _ _).presence.trans ?_
    exact (SameElsewhere.slotRemoved _ _ r v).presence
  · have hold := TimerUnit.slotsCreated_expiry_of_others hv _ _ (grantSlots_others hothers) hw
    unfold TimerUnit.slotRemoved at hold
    by_cases ho : v = s.own
    · rw [if_pos ho] at hold
      exact ⟨hold, fun h => absurd ho h⟩
    · rw [if_neg ho] at hold
      obtain ⟨hmem, hon⟩ := List.mem_filter.mp hold
      refine ⟨hmem, fun _ hr => ?_⟩
      simp [ExpiryWatch.on, hr, hv] at hon

/-- The waiter pass at one entry. -/
theorem PassStep.waiter (s : State) (v : Station) (r : Resource) :
    PassStep v False s (s.promoteEntry r ((s.entry r).dropWaiter v)) r (s.replica.entries[r].dropWaiter v).promote := by
  have hx := State.promoteEntry_eq s r ((s.entry r).dropWaiter v)
  rw [hx]
  refine ⟨⟨_, s.lu.current, rfl⟩, (SameElsewhere.slotsCreated _ _ r _ _).presence, fun hothers w hw hv => ⟨?_, False.elim⟩⟩
  exact TimerUnit.slotsCreated_expiry_of_others hv _ _ (grantSlots_others hothers) hw

/-! ## A pass -/

/-- A pass over entries `rs`, each of which took `act`. -/
structure PassDone (v : Station) (gone : Prop) (s x : State) (rs : List Resource) (act : Resource → Entry × List Grant) :
    Prop where
  frame : ∃ entries tu l, x = { s with
    replica := { s.replica with entries := entries }
    tu := tu, lu := { s.lu with current := l }
    nu := s.nu.arriveAll (rs.flatMap (fun r => s.grantNotes r (act r).2)) }
  entries : ∀ r : Resource, x.replica.entries[r] = if r ∈ rs then (act r).1 else s.replica.entries[r]
  presence : x.tu.presence = s.tu.presence
  watches : (∀ r ∈ rs, ∀ g ∈ (act r).2, g.station ≠ v) →
    ∀ w ∈ x.tu.expiry, w.holder = v → w ∈ s.tu.expiry ∧ (gone → w.r ∉ rs)

theorem PassDone.nil (v : Station) (gone : Prop) (s : State) (act : Resource → Entry × List Grant) :
    PassDone v gone s s [] act :=
  ⟨⟨s.replica.entries, s.tu, s.lu.current, rfl⟩, fun _ => rfl, rfl, fun _ _ hw _ => ⟨hw, fun _ => List.not_mem_nil⟩⟩

theorem entries_set (xs : Vector Entry 64) (e : Entry) (r y : Resource) :
    (xs.set r.val e)[y] = if y = r then e else xs[y] := by
  by_cases h : y = r
  · subst h
    simp
  · rw [if_neg h]
    have hval : r.val ≠ y.val := fun hv => h (Fin.ext hv.symm)
    exact Vector.getElem_set_ne _ _ hval

theorem PassDone.cons {v : Station} {gone : Prop} {s x y : State} {r : Resource} {rs : List Resource}
    {act : Resource → Entry × List Grant} (hr : r ∉ rs) (h : PassStep v gone s x r (act r)) (g : PassDone v gone x y rs act) :
    PassDone v gone s y (r :: rs) act := by
  obtain ⟨tu, l, rfl⟩ := h.frame
  obtain ⟨entries, tu', l', rfl⟩ := g.frame
  refine ⟨⟨entries, tu', l', ?_⟩, fun z => ?_, g.presence.trans h.presence, fun hothers w hw hv => ?_⟩
  · rw [List.flatMap_cons, NoteUnit.arriveAll_append]
    rfl
  · refine (g.entries z).trans ?_
    have hset : (s.replica.entries.set r.val (act r).1)[z] = if z = r then (act r).1 else s.replica.entries[z] :=
      entries_set ..
    rw [hset]
    by_cases hz : z = r
    · subst hz
      rw [if_neg hr, if_pos rfl, if_pos List.mem_cons_self]
    · rw [if_neg hz]
      simp only [List.mem_cons, hz, false_or]
  · obtain ⟨hmem, hgone⟩ := g.watches (fun z hz => hothers z (List.mem_cons_of_mem _ hz)) w hw hv
    obtain ⟨hmem', hgone'⟩ := h.watches (hothers r List.mem_cons_self) w hmem hv
    exact ⟨hmem', fun hg => List.not_mem_cons_of_ne_of_not_mem (hgone' hg) (hgone hg)⟩

theorem PassDone.congr {v : Station} {gone : Prop} {s x : State} {rs : List Resource} {act act' : Resource → Entry × List Grant}
    (h : PassDone v gone s x rs act) (heq : ∀ r ∈ rs, act r = act' r) : PassDone v gone s x rs act' := by
  obtain ⟨entries, tu, l, hx⟩ := h.frame
  refine ⟨⟨entries, tu, l, ?_⟩, fun r => ?_, h.presence, fun hothers => h.watches (fun r hr => ?_)⟩
  · rw [hx]
    have hnotes : rs.flatMap (fun r => s.grantNotes r (act r).2) = rs.flatMap (fun r => s.grantNotes r (act' r).2) := by
      rw [List.flatMap_def, List.flatMap_def]
      exact congrArg List.flatten (List.map_congr_left (fun r hr => by rw [heq r hr]))
    rw [hnotes]
  · refine (h.entries r).trans ?_
    by_cases hr : r ∈ rs
    · rw [if_pos hr, if_pos hr, heq r hr]
    · rw [if_neg hr, if_neg hr]
  · rw [heq r hr]
    exact hothers r hr

/-- A pass takes each of its entries as it was before the pass (R25). -/
theorem PassDone.of_steps {v : Station} {gone : State → Prop} (hg : ∀ s x : State, s.own = x.own → gone s = gone x)
    {p : Entry → Bool} {act : Entry → Entry × List Grant} {F : State → Resource → State}
    (hF : ∀ (s : State) (r : Resource), s.lu.sending = false → PassStep v (gone s) s (F s r) r (act s.replica.entries[r]))
    (rs : List Resource) : ∀ s : State, s.lu.sending = false → rs.Nodup →
    PassDone v (gone s) s (rs.foldl (fun s r => if p (s.entry r) then F s r else s) s)
      (rs.filter (fun r => p s.replica.entries[r])) (fun r => act s.replica.entries[r]) := by
  induction rs with
  | nil => exact fun s _ _ => .nil v _ s _
  | cons r rs ih =>
    intro s hq hnd
    obtain ⟨hr, hnd⟩ := List.nodup_cons.mp hnd
    rw [List.foldl_cons]
    by_cases hp : p s.replica.entries[r] = true
    · rw [List.filter_cons_of_pos (by exact hp)]
      have hstep : (if p (s.entry r) = true then F s r else s) = F s r := if_pos hp
      rw [hstep]
      have hone := hF s r hq
      obtain ⟨tu, l, hx⟩ := hone.frame
      have hsame : ∀ z ∈ rs, (F s r).replica.entries[z] = s.replica.entries[z] := fun z hz => by
        rw [hx]
        have hne : z ≠ r := fun h => hr (h ▸ hz)
        exact (entries_set ..).trans (if_neg hne)
      have hrest := ih (F s r) (by rw [hx]; exact hq) hnd
      have hfilter : rs.filter (fun z => p (F s r).replica.entries[z]) = rs.filter (fun z => p s.replica.entries[z]) :=
        List.filter_congr (fun z hz => by rw [hsame z hz])
      rw [hfilter, hg (F s r) s (by rw [hx]; rfl)] at hrest
      refine PassDone.cons (fun h => hr ((List.mem_filter.mp h).1)) hone (hrest.congr (fun z hz => ?_))
      rw [hsame z ((List.mem_filter.mp hz).1)]
    · rw [List.filter_cons_of_neg (by exact hp)]
      have hstep : (if p (s.entry r) = true then F s r else s) = s := if_neg hp
      rw [hstep]
      exact ih s hq hnd

/-! ## The two passes -/

theorem allResources_nodup : allResources.Nodup := List.nodup_finRange 64

def State.holderPass (s : State) (v : Station) : State :=
  allResources.foldl
    (fun s r => if (s.entry r).holds v then (s.slotRemoved r v).promoteEntry r ((s.entry r).dropHolder v) else s) s

def State.waiterPass (s : State) (v : Station) : State :=
  allResources.foldl (fun s r => if (s.entry r).waits v then s.promoteEntry r ((s.entry r).dropWaiter v) else s) s

theorem State.removeFromTable_passes (s : State) (v : Station) : s.removeFromTable v = (s.holderPass v).waiterPass v := rfl

theorem State.holderPass_done {s : State} (hq : s.lu.sending = false) (v : Station) :
    PassDone v (v ≠ s.own) s (s.holderPass v) (allResources.filter (fun r => s.replica.entries[r].holds v))
      (fun r => (s.replica.entries[r].dropHolder v).promote) :=
  PassDone.of_steps (gone := fun s => v ≠ s.own) (p := fun e => e.holds v) (act := fun e => (e.dropHolder v).promote)
    (F := fun s r => (s.slotRemoved r v).promoteEntry r ((s.entry r).dropHolder v))
    (fun s x h => by rw [h]) (fun s r hq => .holder hq v r) allResources s hq allResources_nodup

theorem State.waiterPass_done {s : State} (hq : s.lu.sending = false) (v : Station) :
    PassDone v False s (s.waiterPass v) (allResources.filter (fun r => s.replica.entries[r].waits v))
      (fun r => (s.replica.entries[r].dropWaiter v).promote) :=
  PassDone.of_steps (gone := fun _ => False) (p := fun e => e.waits v) (act := fun e => (e.dropWaiter v).promote)
    (F := fun s r => s.promoteEntry r ((s.entry r).dropWaiter v))
    (fun _ _ _ => rfl) (fun s r _ => .waiter s v r) allResources s hq allResources_nodup

/-- A station that has been removed from every entry by the two passes, with the grants told (R25, R28). -/
structure LeftTable (v : Station) (s x : State) : Prop where
  frame : ∃ entries tu l, x = { s with
    replica := { s.replica with entries := entries }
    tu := tu, lu := { s.lu with current := l }, nu := s.nu.arriveAll (s.removalGrants v) }
  entries : ∀ r : Resource, x.replica.entries[r] = (removalRule s.replica.entries[r] v).1
  presence : x.tu.presence = s.tu.presence
  watches : v ≠ s.own → ∀ w ∈ x.tu.expiry, s.replica.entries[w.r].holds v = true → w.holder ≠ v

/-- No entry has `v` as both holder and waiter (R2). -/
def State.oneRole (s : State) (v : Station) : Prop :=
  ∀ r : Resource, ¬(s.replica.entries[r].holds v = true ∧ s.replica.entries[r].waits v = true)

theorem State.oneRole.of_holds {s : State} {v : Station} (h : s.oneRole v) {r : Resource}
    (hh : s.replica.entries[r].holds v = true) : s.replica.entries[r].waits v = false :=
  Bool.eq_false_iff.mpr (fun hw => h r ⟨hh, hw⟩)

theorem Entry.waits_dropHolder (e : Entry) (v : Station) : (e.dropHolder v).waits v = e.waits v := rfl

theorem Entry.promote_waits {e : Entry} {v : Station} (h : e.waits v = false) : e.promote.1.waits v = false :=
  List.any_eq_false.mpr (fun w hw => List.any_eq_false.mp h w ((promoteFrom_waiters e.waiters e).subset hw))

theorem Entry.grants_of_dropHolder {e : Entry} {v u : Station} (h : e.waits u = false) :
    ∀ g ∈ (e.dropHolder v).promote.2, g.station ≠ u :=
  fun g hg => Entry.created_of_dropHolder h (g.station, g.gen) (List.mem_map_of_mem hg)

theorem Entry.grants_of_dropWaiter (e : Entry) (v : Station) : ∀ g ∈ (e.dropWaiter v).promote.2, g.station ≠ v :=
  fun g hg => Entry.created_of_dropWaiter e v (g.station, g.gen) (List.mem_map_of_mem hg)

theorem mem_allResources_filter (p : Resource → Bool) (r : Resource) : r ∈ allResources.filter p ↔ p r = true := by
  rw [List.mem_filter]
  exact and_iff_right (mem_allResources r)

/-- After the holder pass the waiters of `v` are where they were. -/
theorem State.holderPass_entry {s : State} (hq : s.lu.sending = false) (v : Station) (r : Resource) :
    (s.holderPass v).replica.entries[r]
      = if s.replica.entries[r].holds v then (s.replica.entries[r].dropHolder v).promote.1 else s.replica.entries[r] := by
  refine ((State.holderPass_done hq v).entries r).trans ?_
  simp only [mem_allResources_filter]

theorem State.holderPass_waits {s : State} (hq : s.lu.sending = false) {v : Station} (h : s.oneRole v) (r : Resource) :
    (s.holderPass v).replica.entries[r].waits v = s.replica.entries[r].waits v := by
  rw [State.holderPass_entry hq]
  rcases hh : s.replica.entries[r].holds v with _ | _
  · rfl
  · have hw := h.of_holds hh
    rw [if_pos rfl, hw]
    exact Entry.promote_waits (by rw [Entry.waits_dropHolder, hw])

/-- `v` is removed from every entry, where it has one role in each. -/
theorem State.removeFromTable_left {s : State} (hq : s.lu.sending = false) {v : Station} (h : s.oneRole v) :
    LeftTable v s (s.removeFromTable v) := by
  have hfirst := State.holderPass_done hq v
  obtain ⟨entries, tu, l, hx⟩ := hfirst.frame
  have hsecond := State.waiterPass_done (s := s.holderPass v) (by rw [hx]; exact hq) v
  obtain ⟨entries', tu', l', hy⟩ := hsecond.frame
  have hwaiting : allResources.filter (fun r => (s.holderPass v).replica.entries[r].waits v)
      = allResources.filter (fun r => s.replica.entries[r].waits v) :=
    List.filter_congr (fun r _ => State.holderPass_waits hq h r)
  have hentry : ∀ r : Resource, s.replica.entries[r].waits v = true →
      (s.holderPass v).replica.entries[r] = s.replica.entries[r] := fun r hw => by
    have hh : s.replica.entries[r].holds v = false := Bool.eq_false_iff.mpr (fun hh => h r ⟨hh, hw⟩)
    rw [State.holderPass_entry hq, hh]
    rfl
  rw [hwaiting] at hsecond hy
  rw [State.removeFromTable_passes]
  refine ⟨⟨entries', tu', l', ?frame⟩, fun r => ?entries, hsecond.presence.trans hfirst.presence, fun ho w hw hh hv => ?watches⟩
  case frame =>
    have hholders : (allResources.filter (fun r => s.replica.entries[r].holds v)).flatMap
          (fun r => s.grantNotes r (s.replica.entries[r].dropHolder v).promote.2)
        = (allResources.filter (fun r => s.replica.entries[r].holds v)).flatMap
          (fun r => s.grantNotes r (removalRule s.replica.entries[r] v).2) := by
      simp only [List.flatMap_def]
      refine congrArg List.flatten (List.map_congr_left (fun r hr => ?_))
      rw [removalRule, if_pos ((mem_allResources_filter _ r).mp hr)]
    have hwaiters : (allResources.filter (fun r => s.replica.entries[r].waits v)).flatMap
          (fun r => (s.holderPass v).grantNotes r ((s.holderPass v).replica.entries[r].dropWaiter v).promote.2)
        = (allResources.filter (fun r => s.replica.entries[r].waits v)).flatMap
          (fun r => s.grantNotes r (removalRule s.replica.entries[r] v).2) := by
      simp only [List.flatMap_def]
      refine congrArg List.flatten (List.map_congr_left (fun r hr => ?_))
      have hw := (mem_allResources_filter _ r).mp hr
      have hh : s.replica.entries[r].holds v = false := Bool.eq_false_iff.mpr (fun hh => h r ⟨hh, hw⟩)
      have hown : ∀ gs, (s.holderPass v).grantNotes r gs = s.grantNotes r gs := fun gs => by
        rw [hx]
        rfl
      rw [hentry r hw, hown, removalRule, hh, if_neg (by simp), if_pos hw]
    rw [hy, hwaiters, hx]
    simp only [State.removalGrants, NoteUnit.arriveAll_append, hholders]
  case entries =>
    refine (hsecond.entries r).trans ?_
    rw [removalRule]
    simp only [mem_allResources_filter]
    rcases hw : s.replica.entries[r].waits v with _ | _
    · rw [if_neg (by simp), State.holderPass_entry hq]
      rcases hh : s.replica.entries[r].holds v with _ | _ <;> rfl
    · have hh : s.replica.entries[r].holds v = false := Bool.eq_false_iff.mpr (fun hh => h r ⟨hh, hw⟩)
      rw [if_pos rfl, hentry r hw, hh]
      rfl
  case watches =>
    obtain ⟨hmem, -⟩ := hsecond.watches (fun r _ => Entry.grants_of_dropWaiter _ v) w hw hv
    obtain ⟨-, hgone⟩ := hfirst.watches
      (fun r hr => Entry.grants_of_dropHolder (h.of_holds ((mem_allResources_filter _ r).mp hr))) w hmem hv
    exact hgone ho ((mem_allResources_filter _ _).mpr hh)

end Sys2Proof.Machine
end

section
/-! The removal of a station (R25, R46 to R48): its entries, its pairing, its listing and its watches. -/

namespace Sys2Proof.Machine

/-! ## Pairings -/

theorem roster_set (xs : Vector RosterEntry 32) (e : RosterEntry) (v y : Station) :
    (xs.set v.val e)[y] = if y = v then e else xs[y] := by
  by_cases h : y = v
  · subst h
    simp
  · rw [if_neg h]
    have hval : v.val ≠ y.val := fun hv => h (Fin.ext hv.symm)
    exact Vector.getElem_set_ne _ _ hval

/-- The roster without the pair in which `x` provides for `v` (R40, R47). -/
def unpaired (roster : Vector RosterEntry 32) (x v : Station) : Vector RosterEntry 32 :=
  (roster.set x.val { roster[x] with providingFor := none }).set v.val
    { (roster.set x.val { roster[x] with providingFor := none })[v] with provider := none }

theorem unpaired_get (roster : Vector RosterEntry 32) (x v y : Station) :
    (unpaired roster x v)[y] = { roster[y] with
      provider := if y = v then none else roster[y].provider
      providingFor := if y = x then none else roster[y].providingFor } := by
  unfold unpaired
  rw [roster_set]
  by_cases hv : y = v
  · subst hv
    rw [if_pos rfl, roster_set, if_pos rfl]
    by_cases hx : y = x
    · subst hx
      rw [if_pos rfl, if_pos rfl]
    · rw [if_neg hx, if_neg hx]
  · rw [if_neg hv, roster_set, if_neg hv]
    by_cases hx : y = x
    · subst hx
      rw [if_pos rfl, if_pos rfl]
    · rw [if_neg hx, if_neg hx]

theorem State.endPairing_form (s : State) (x v : Station) :
    s.endPairing x v = { s with
      replica := { s.replica with roster := unpaired s.replica.roster x v }
      sc := { s.sc with shadow := if x = s.own then none else s.sc.shadow } } := by
  rw [State.endPairing]
  by_cases hx : x = s.own
  · simp only [if_pos hx]
    rfl
  · simp only [if_neg hx]
    rfl

/-- The pairings of `v` cleared, both ways (R47). -/
structure Unpaired (v : Station) (s x : State) : Prop where
  frame : ∃ roster shadow, x = { s with
    replica := { s.replica with roster := roster }, sc := { s.sc with shadow := shadow } }
  inc : x.replica.roster[v].inc = s.replica.roster[v].inc
  roster : s.replica.roster[v].providingFor ≠ some v →
    ∀ y ≠ v, x.replica.roster[y] = rosterWithout s.replica.roster v y
  shadow : s.replica.roster[v].providingFor ≠ some v → v ≠ s.own →
    x.sc.shadow = if s.replica.roster[v].provider = some s.own then none else s.sc.shadow

/-- The first half of the clearing: what `v` provides. -/
def State.clearProvided (s : State) (v : Station) : State :=
  match (s.rosterOf v).providingFor with
  | some j => s.endPairing v j
  | none => s

/-- The second half: its provider. -/
def State.clearProvider (s : State) (v : Station) : State :=
  match (s.rosterOf v).provider with
  | some x => s.endPairing x v
  | none => s

theorem State.clearPairings_halves (s : State) (v : Station) : s.clearPairings v = (s.clearProvided v).clearProvider v :=
  rfl

theorem State.clearProvider_none {s : State} {v : Station} (h : (s.rosterOf v).provider = none) : s.clearProvider v = s := by
  rw [State.clearProvider, h]

theorem State.clearProvider_some {s : State} {v x : Station} (h : (s.rosterOf v).provider = some x) :
    s.clearProvider v = s.endPairing x v := by
  rw [State.clearProvider, h]

theorem State.clearProvided_form (s : State) (v : Station) : ∃ shadow, s.clearProvided v = { s with
      replica := { s.replica with roster := (s.clearProvided v).replica.roster }, sc := { s.sc with shadow := shadow } }
    ∧ (v ≠ s.own → shadow = s.sc.shadow)
    ∧ ∀ y : Station, (s.clearProvided v).replica.roster[y] = { s.replica.roster[y] with
        provider := if s.replica.roster[v].providingFor = some y then none else s.replica.roster[y].provider
        providingFor := if y = v then none else s.replica.roster[y].providingFor } := by
  have hv : s.rosterOf v = s.replica.roster[v] := rfl
  rcases hp : s.replica.roster[v].providingFor with _ | j
  · have hsame : s.clearProvided v = s := by rw [State.clearProvided, hv, hp]
    refine ⟨s.sc.shadow, by rw [hsame], fun _ => rfl, fun y => ?_⟩
    rw [hsame, if_neg (by simp)]
    by_cases hy : y = v
    · subst hy
      rw [if_pos rfl, ← hp]
    · rw [if_neg hy]
  · have hend : s.clearProvided v = s.endPairing v j := by rw [State.clearProvided, hv, hp]
    rw [hend, State.endPairing_form]
    refine ⟨_, rfl, fun h => if_neg h, fun y => ?_⟩
    have hj : (some j = some y) ↔ (y = j) := by rw [Option.some.injEq, eq_comm]
    refine (unpaired_get s.replica.roster v j y).trans ?_
    simp only [hj]

theorem State.clearPairings_unpaired (s : State) (v : Station) : Unpaired v s (s.clearPairings v) := by
  obtain ⟨shadow, hform, hshadow, hroster⟩ := s.clearProvided_form v
  have hprovider : ((s.clearProvided v).rosterOf v).provider
      = if s.replica.roster[v].providingFor = some v then none else s.replica.roster[v].provider :=
    congrArg RosterEntry.provider (hroster v)
  have hsc : (s.clearProvided v).sc.shadow = shadow := by rw [hform]
  have hown : (s.clearProvided v).own = s.own := by rw [hform]; rfl
  rcases hp : ((s.clearProvided v).rosterOf v).provider with _ | x
  · rw [State.clearPairings_halves, State.clearProvider_none hp]
    refine ⟨⟨_, _, hform⟩, by rw [hroster v], fun h y hy => ?_, fun h ho => ?_⟩
    · have hnone : s.replica.roster[v].provider = none := by rw [← hp, hprovider, if_neg h]
      rw [hroster y, rosterWithout, if_neg hy, if_neg hy, hnone]
      simp only [reduceCtorEq, if_false]
    · have hnone : s.replica.roster[v].provider = none := by rw [← hp, hprovider, if_neg h]
      rw [hnone, if_neg (by simp), hsc, hshadow ho]
  · rw [State.clearPairings_halves, State.clearProvider_some hp]
    have hget : ∀ y : Station, ((s.clearProvided v).endPairing x v).replica.roster[y]
        = (unpaired (s.clearProvided v).replica.roster x v)[y] := fun y => by
      rw [State.endPairing_form]
    refine ⟨⟨(unpaired (s.clearProvided v).replica.roster x v),
        if x = s.own then none else shadow, ?_⟩, ?_, fun h y hy => ?_, fun h ho => ?_⟩
    · rw [State.endPairing_form, hown, hsc]
      rw [hform]
    · rw [hget, unpaired_get, hroster v]
    · have hx : s.replica.roster[v].provider = some x := by rw [← hp, hprovider, if_neg h]
      have hxy : (some x = some y) ↔ (y = x) := by rw [Option.some.injEq, eq_comm]
      rw [hget, unpaired_get, hroster y, rosterWithout, if_neg hy, if_neg hy, if_neg hy, hx]
      simp only [hxy]
    · have hx : s.replica.roster[v].provider = some x := by rw [← hp, hprovider, if_neg h]
      rw [State.endPairing_form, hown, hsc, hshadow ho, hx]
      simp only [Option.some.injEq]

/-! ## The removal -/

/-- Station `v` has been removed, and `told` said of it after the grants (R25, R46 to R48). -/
structure Removed (v : Station) (told : List Note) (s x : State) : Prop where
  frame : ∃ entries roster tu l shadow, x = { s with
    replica := { s.replica with entries := entries, roster := roster }
    sc := { s.sc with shadow := shadow }
    tu := tu, lu := { s.lu with current := l }, nu := s.nu.arriveAll (s.removalGrants v ++ told) }
  entries : ∀ r : Resource, x.replica.entries[r] = (removalRule s.replica.entries[r] v).1
  watches : v ≠ s.own → ∀ w ∈ x.tu.expiry, s.replica.entries[w.r].holds v = true → w.holder ≠ v
  verdicts : ∀ i ∈ x.tu.verdicts, ∀ inc, i.verdict ≠ .evict v inc
  presence : ∀ w ∈ x.tu.presence, w.station ≠ v
  absent : x.replica.roster[v].state = .absent
  roster : s.replica.roster[v].providingFor ≠ some v → ∀ y : Station,
    x.replica.roster[y] = rosterWithout s.replica.roster v y
  shadow : s.replica.roster[v].providingFor ≠ some v → v ≠ s.own →
    x.sc.shadow = if s.replica.roster[v].provider = some s.own then none else s.sc.shadow

theorem State.closePresence_off {s : State} (hq : s.lu.sending = false) (v : Station) :
    s.closePresence v = { s with tu := { s.tu with
      verdicts := s.tu.verdicts.filter (fun i => !Verdict.evicts v i.verdict)
      presence := s.tu.presence.filter (fun w => w.station != v) } } := by
  rw [State.closePresence, s.dropVerdicts_off hq]
  rfl

theorem State.dropOwnHolds_form (s : State) : ∃ l, s.dropOwnHolds = { s with
    lu := { s.lu with current := l }, tu := { s.tu with holds := [], surrender := [] } } := by
  rw [State.dropOwnHolds, State.withdrawAttempt_eq]
  exact ⟨_, rfl⟩

theorem evicts_iff {v : Station} {x : Verdict} : Verdict.evicts v x = true ↔ ∃ i, x = .evict v i := by
  rcases x with ⟨r, h, g⟩ | ⟨u, i⟩
  · simp [Verdict.evicts]
  · simp [Verdict.evicts]

/-- The listing of `v` and the watch on it go (R46, R118). -/
def State.delist (s : State) (v : Station) : State :=
  (s.setRosterEntry v { state := .absent, inc := (s.rosterOf v).inc, provider := none, providingFor := none }).closePresence v

/-- This station's own removal drops its records too (R46). -/
def State.dropIfOwn (s : State) (v : Station) : State := if v = s.own then s.dropOwnHolds else s

theorem State.removeStation_steps (s : State) (v : Station) :
    s.removeStation v = (((s.removeFromTable v).clearPairings v).delist v).dropIfOwn v := rfl

theorem Removed.delist {s x y : State} {v : Station} (hq : s.lu.sending = false) (hx : LeftTable v s x)
    (hy : Unpaired v x y) : Removed v [] s (y.delist v) := by
  obtain ⟨entries, tu, l, hxf⟩ := hx.frame
  obtain ⟨roster, shadow, hyf⟩ := hy.frame
  have hroster : x.replica.roster = s.replica.roster := by rw [hxf]
  have hsc : x.sc = s.sc := by rw [hxf]
  have hown : x.own = s.own := by rw [hxf]; rfl
  rw [State.delist, State.closePresence_off (by rw [hyf, hxf]; exact hq)]
  refine ⟨?frame, fun r => ?entries, ?watches, ?verdicts, ?presence, ?absent, fun hp z => ?roster, fun hp ho => ?shadow⟩
  case frame =>
    rw [hyf, hxf]
    exact ⟨_, _, _, l, shadow, by rw [List.append_nil]; rfl⟩
  case entries =>
    rw [← hx.entries r, hyf]
    rfl
  case watches =>
    have htu : y.tu = x.tu := by rw [hyf]
    intro ho w hw
    exact hx.watches ho w (htu ▸ hw)
  case verdicts =>
    intro i hi inc heq
    have hnot := (List.mem_filter.mp hi).2
    rw [evicts_iff.mpr ⟨inc, heq⟩] at hnot
    exact nomatch hnot
  case presence =>
    intro w hw
    exact bne_iff_ne.mp (List.mem_filter.mp hw).2
  case absent => exact congrArg RosterEntry.state ((roster_set _ _ v v).trans (if_pos rfl))
  case roster =>
    refine (roster_set _ _ v z).trans ?_
    by_cases hz : z = v
    · have hinc : (y.rosterOf v).inc = s.replica.roster[v].inc := by
        rw [← hroster]
        exact hy.inc
      rw [if_pos hz, rosterWithout, if_pos hz, hinc]
    · rw [if_neg hz, ← hroster]
      exact hy.roster (by rw [hroster]; exact hp) z hz
  case shadow =>
    have hpairShadow := hy.shadow (by rw [hroster]; exact hp) (by rw [hown]; exact ho)
    rw [hroster, hown, hsc] at hpairShadow
    exact hpairShadow

theorem Removed.dropIfOwn {s x : State} {v : Station} {told : List Note} (hx : Removed v told s x) :
    Removed v told s (x.dropIfOwn v) := by
  rw [State.dropIfOwn]
  split
  · obtain ⟨entries, roster, tu, l, shadow, hxf⟩ := hx.frame
    obtain ⟨l', hl'⟩ := x.dropOwnHolds_form
    rw [hl']
    refine ⟨⟨entries, roster, { tu with holds := [], surrender := [] }, l', shadow, ?_⟩, hx.entries, hx.watches, hx.verdicts, hx.presence, hx.absent,
      hx.roster, hx.shadow⟩
    rw [hxf]
  · exact hx

/-- The removal of a station with one role in each entry (R46). -/
theorem State.removeStation_removed {s : State} (hq : s.lu.sending = false) {v : Station} (h : s.oneRole v) :
    Removed v [] s (s.removeStation v) := by
  rw [State.removeStation_steps]
  exact (Removed.delist hq (State.removeFromTable_left hq h) (State.clearPairings_unpaired _ v)).dropIfOwn

/-- MEMBERSHIP of a station that was MEMBER (R48). -/
def State.departureTold (s : State) (live : Bool) (v : Station) (c : MembershipCause) : List Note :=
  if live = true ∧ s.replica.roster[v].state = .member ∧ v ≠ s.own then [.membership v c] else []

theorem Removed.tell {s x : State} {v : Station} (hx : Removed v [] s x) (n : Note) : Removed v [n] s (x.note n) := by
  obtain ⟨entries, roster, tu, l, shadow, hxf⟩ := hx.frame
  refine ⟨⟨entries, roster, tu, l, shadow, ?_⟩, hx.entries, hx.watches, hx.verdicts, hx.presence, hx.absent,
      hx.roster, hx.shadow⟩
  rw [hxf, List.append_nil, NoteUnit.arriveAll_append]
  rfl

theorem State.removeAndTell_removed {s : State} (hq : s.lu.sending = false) {v : Station} (h : s.oneRole v) (live : Bool)
    (c : MembershipCause) : Removed v (s.departureTold live v c) s (s.removeAndTell live v c) := by
  have hremoved := State.removeStation_removed hq h
  have hcond : (live = true ∧ ((s.rosterOf v).state == .member) = true ∧ v ≠ s.own)
      ↔ (live = true ∧ s.replica.roster[v].state = .member ∧ v ≠ s.own) := by
    rw [beq_iff_eq]
    rfl
  rw [State.removeAndTell, State.departureTold]
  simp only [hcond]
  split
  · exact hremoved.tell (.membership v c)
  · exact hremoved

end Sys2Proof.Machine
end

section
/-! LEAVE and EVICT of other stations, and the roster frames that change nothing (R25, R33, R42 to R48). -/

namespace Sys2Proof.Machine

/-! ## The roster rules -/

/-- A LEAVE of another station that is listed (R42, R33). -/
theorem State.applyRule_leave {s : State} {f : Frame} (live : Bool) (hb : f.body = .leave)
    (h : s.listedAs f (fun st => st != .absent) = true) :
    s.applyRule live false f = ((s.removeAndTell live f.sender .left).advanceTsn, Report.nothing) := by
  rw [State.applyRule]
  simp only [hb, h, if_true]
  rfl

/-- An EVICT of a listed station, not this one, by a valid actor (R44). -/
theorem State.applyRule_evict {s : State} {f : Frame} {v : Station} {i : Byte} (live : Bool) (hb : f.body = .evict v i)
    (hv : v ≠ s.own)
    (h : (s.validActor f && (s.rosterOf v).state != .absent && (s.rosterOf v).inc == i) = true) :
    s.applyRule live false f = ((s.removeAndTell live v .evicted).advanceTsn, Report.nothing) := by
  have hown : (v == s.own) = false := beq_eq_false_iff_ne.mpr hv
  rw [State.applyRule]
  simp only [hb, h, if_true, hown, Bool.and_false]
  rfl

/-- A READY, LEAVE or EVICT that changes nothing (R33, R45). -/
def State.rosterFrameMisses (s : State) (f : Frame) : Prop :=
  (f.body = .ready ∧ s.listedAs f (fun st => st == .joining) = false)
  ∨ (f.body = .leave ∧ s.listedAs f (fun st => st != .absent) = false)
  ∨ ∃ v i, f.body = .evict v i ∧ (s.validActor f && (s.rosterOf v).state != .absent && (s.rosterOf v).inc == i) = false

theorem State.applyRule_rosterMiss {s : State} {f : Frame} (live : Bool) (h : s.rosterFrameMisses f) :
    s.applyRule live false f = (s.advanceTsn, Report.nothing) := by
  rw [State.applyRule]
  rcases h with ⟨hb, h⟩ | ⟨hb, h⟩ | ⟨v, i, hb, h⟩
  · simp only [hb, h, Bool.false_eq_true, if_false]
    rfl
  · simp only [hb, h, Bool.false_eq_true, if_false]
    rfl
  · simp only [hb, h, Bool.false_eq_true, if_false, Bool.false_and]
    rfl

/-! ## What is left of a removed station -/

theorem Removed.removesStation {s y x t : State} {v : Station} {told : List Note} (h : Removed v told y x) (ho : v ≠ y.own)
    (hs : y.replica.entries = s.replica.entries) (he : t.replica.entries = x.replica.entries)
    (hexp : t.tu.expiry = x.tu.expiry) (hver : ∀ i ∈ t.tu.verdicts, i ∈ x.tu.verdicts) : RemovesStation s t v where
  entries := fun r => by rw [he, h.entries r, hs]
  watches := fun r hr w hw hwr => by
    subst hwr
    exact h.watches ho w (hexp ▸ hw) (by rw [hs]; exact hr)
  verdicts := fun i hi inc => h.verdicts i (hver i hi) inc

theorem rosterWithout_inc (roster : Vector RosterEntry 32) (v x : Station) : (rosterWithout roster v x).inc = roster[x].inc := by
  rw [rosterWithout]
  by_cases h : x = v
  · rw [if_pos h, h]
  · rw [if_neg h]

/-- What stands after a removal told to nobody but this station. -/
structure RemovalStands (s t : State) (v : Station) (told : List Note) : Prop where
  removes : RemovesStation s t v
  roster : ∀ x : Station, t.replica.roster[x] = rosterWithout s.replica.roster v x
  tsn : t.replica.tsn = s.replica.tsn + 1
  notes : { t.nu with irq := s.nu.irq } = s.nu.arriveAll (s.removalGrants v ++ told)
  presence : ∀ w ∈ t.tu.presence, w.station ≠ v
  sc : t.sc = { s.sc with
    ownInc := s.replica.roster[s.own].inc
    shadow := if s.replica.roster[v].provider = some s.own then none else s.sc.shadow }
  requests : t.requests = s.requests
  config : t.config = s.config
  tm : t.tm = s.tm
  kp : t.kp = s.kp

/-- The removal from a state that differs from `s` in the mismatch record, the Line Unit and the Timer Unit, and what
follows it in the Timer Unit. -/
theorem Removed.stands {s x t : State} {v : Station} {told : List Note} {m : Option Station} {lu : LineUnit}
    {tu tu' : TimerUnit}
    (h : Removed v told { s with replica := { s.replica with mismatch := m }, lu := lu, tu := tu } x) (ho : v ≠ s.own)
    (hlaw : s.lawfulFor v) (ht : SettlesTo (State.followInc { x.advanceTsn with tu := tu' }) t)
    (hexp : tu'.expiry = x.tu.expiry) (hver : ∀ i ∈ tu'.verdicts, i ∈ x.tu.verdicts)
    (hpres : ∀ w ∈ tu'.presence, ∃ w' ∈ x.tu.presence, w'.station = w.station) :
    RemovalStands s t v told ∧ t.replica.mismatch = m := by
  obtain ⟨entries, roster, tu, l, shadow, hx⟩ := h.frame
  have hroster : ∀ y : Station, x.replica.roster[y] = rosterWithout s.replica.roster v y := h.roster hlaw.2
  have hshadow : x.sc.shadow = if s.replica.roster[v].provider = some s.own then none else s.sc.shadow :=
    h.shadow hlaw.2 ho
  have hinc : x.replica.roster[s.own].inc = s.replica.roster[s.own].inc := by
    rw [hroster s.own]
    exact rosterWithout_inc ..
  refine ⟨⟨?removes, fun y => ?roster, ?tsn, ?notes, ?presence, ?sc, ?requests, ?config, ?tm, ?kp⟩, ?mismatch⟩
  case removes =>
    refine h.removesStation ho rfl ?_ (ht.tu_expiry.trans hexp) (fun i hi => hver i (ht.tu_verdicts ▸ hi))
    rw [ht.replica]
    rfl
  case roster =>
    rw [ht.replica]
    exact hroster y
  case notes =>
    refine ht.notes (n := s.nu) ?_
    subst hx
    rfl
  case presence =>
    intro w hw
    rw [ht.tu_presence] at hw
    obtain ⟨w', hw', hst⟩ := hpres w hw
    exact hst ▸ h.presence w' hw'
  case sc =>
    have hsh : shadow = if s.replica.roster[v].provider = some s.own then none else s.sc.shadow := by
      rw [← hshadow, hx]
    rw [ht.sc, ← hsh, ← hinc]
    subst hx
    rfl
  case tsn | mismatch =>
    rw [ht.replica]
    subst hx
    rfl
  case requests =>
    rw [ht.requests]
    subst hx
    rfl
  case config =>
    rw [ht.config]
    subst hx
    rfl
  case tm =>
    rw [ht.tm]
    subst hx
    rfl
  case kp =>
    rw [ht.kp]
    subst hx
    rfl

theorem State.departureTold_other {s : State} {v : Station} (h : v ≠ s.own) (c : MembershipCause) :
    s.departureTold true v c = if s.replica.roster[v].state = .member then [.membership v c] else [] := by
  rw [State.departureTold]
  by_cases hm : s.replica.roster[v].state = .member
  · rw [if_pos hm, if_pos ⟨rfl, hm, h⟩]
  · rw [if_neg hm, if_neg (fun x => hm x.2.1)]

/-- Settles O44: a removal by LEAVE and by EVICT, and what misses. -/
theorem acceptedRemovalRemovesStation : Obligations.AcceptedRemovalRemovesStation := by
  refine ⟨fun s f v hh hsender hv hst htsn hlisted _ hlaw hf => ?hit, fun s f hh hsender hst hstep hf => ?miss⟩
  case hit =>
    have hlive : s.sc.station.live = true := by rw [hst]; rfl
    have hq : ((s.heard f).inStep f).lu.sending = false := hh.not_sending
    have hexec := hh.exec_handOn hsender
    have hrole : ((s.heard f).inStep f).oneRole v := hlaw.1
    have hdone : ∃ c : MembershipCause, c = (if f.body = .leave then .left else .evicted) ∧ f.body.isState = true
        ∧ ((s.heard f).inStep f).applyRule true false f
          = ((((s.heard f).inStep f).removeAndTell true v c).advanceTsn, Report.nothing) := by
      rcases hf with ⟨hb, rfl, hinc⟩ | ⟨hb, hrole', hmember, hinc⟩
      · refine ⟨.left, by rw [if_pos hb], by rw [hb]; rfl, State.applyRule_leave true hb ?_⟩
        have h1 : (s.replica.roster[f.sender].state != .absent) = true := bne_iff_ne.mpr hlisted
        exact Bool.and_eq_true_iff.mpr ⟨h1, beq_iff_eq.mpr hinc⟩
      · refine ⟨.evicted, by rw [if_neg (by rw [hb]; exact nofun)], by rw [hb]; rfl,
          State.applyRule_evict true hb hv ?_⟩
        have h1 : (s.replica.roster[v].state != .absent) = true := bne_iff_ne.mpr hlisted
        have h2 : ((s.heard f).inStep f).validActor f = true :=
          Bool.and_eq_true_iff.mpr ⟨Bool.and_eq_true_iff.mpr ⟨beq_iff_eq.mpr hrole', beq_iff_eq.mpr hmember⟩,
            beq_iff_eq.mpr hinc⟩
        rw [h2, Bool.true_and]
        exact Bool.and_eq_true_iff.mpr ⟨h1, beq_self_eq_true _⟩
    obtain ⟨c, hc, hstate, happ⟩ := hdone
    rw [State.handOn_live_state (by exact hlive) hstate, State.applyLive_foreign_nothing (s := s.heard f) (fun _ => htsn) happ] at hexec
    obtain ⟨t, hexec, hs⟩ := exists_settled hexec
    have hremoved := State.removeAndTell_removed hq hrole true c
    have hstands := (Removed.stands (s := s) hremoved hv hlaw hs rfl (fun _ hi => hi) (fun w hw => ⟨w, hw, rfl⟩)).1
    have htold : ((s.heard f).inStep f).departureTold true v c
        = if s.replica.roster[v].state = .member
          then [.membership v (if f.body = .leave then .left else .evicted)] else [] := by
      rw [← hc]
      exact State.departureTold_other (s := (s.heard f).inStep f) hv c
    rw [htold] at hstands
    exact ⟨t, hexec, hstands.removes, hstands.roster, hstands.tsn, hstands.notes, hstands.presence, hstands.sc,
      hstands.requests, hstands.config, hstands.tm, hstands.kp⟩
  case miss =>
    have hlive : s.sc.station.live = true := by rw [hst]; rfl
    have hexec := hh.exec_handOn hsender
    have hmiss : ((s.heard f).inStep f).rosterFrameMisses f := by
      rcases hf with ⟨hb, h⟩ | ⟨hb, h⟩ | ⟨v, i, hb, h⟩
      · refine Or.inl ⟨hb, Bool.eq_false_iff.mpr (fun hl => h ?_)⟩
        obtain ⟨hstate, hinc⟩ := Bool.and_eq_true_iff.mp hl
        exact ⟨beq_iff_eq.mp hstate, beq_iff_eq.mp hinc⟩
      · refine Or.inr (Or.inl ⟨hb, Bool.eq_false_iff.mpr (fun hl => h ?_)⟩)
        obtain ⟨hstate, hinc⟩ := Bool.and_eq_true_iff.mp hl
        exact ⟨bne_iff_ne.mp hstate, beq_iff_eq.mp hinc⟩
      · refine Or.inr (Or.inr ⟨v, i, hb, Bool.eq_false_iff.mpr (fun hl => h ?_)⟩)
        obtain ⟨hvalid, hinc⟩ := Bool.and_eq_true_iff.mp hl
        obtain ⟨hvalid, hstate⟩ := Bool.and_eq_true_iff.mp hvalid
        exact ⟨hvalid, bne_iff_ne.mp hstate, beq_iff_eq.mp hinc⟩
    have hstate : f.body.isState = true := by
      rcases hf with ⟨hb, -⟩ | ⟨hb, -⟩ | ⟨v, i, hb, -⟩ <;> rw [hb] <;> rfl
    rw [State.handOn_live_state (by exact hlive) hstate,
      State.applyLive_foreign_nothing (by exact hstep) (State.applyRule_rosterMiss true hmiss)] at hexec
    obtain ⟨t, hexec, hs⟩ := exists_settled hexec
    exact ⟨t, hexec, hs.replica, hs.nu_but_irq, hs.sc, hs.requests, hs.config, hs.tm, hs.kp⟩

end Sys2Proof.Machine
end

section
/-! The own EXPIRE and EVICT (R22, R24, R42, R46, R116, R119). -/

namespace Sys2Proof.Machine

/-! ## The end of an own verdict -/

/-- The Timer Unit after an own verdict has ended (R116, R119). -/
def TimerUnit.verdictEnded (u : TimerUnit) (stray : Bool) : Verdict → TimerUnit
  | .expire r h g =>
    { u with
      verdicts := u.verdicts.filter (fun i => i.verdict != .expire r h g)
      expiry := u.expiry.map (fun w =>
        if stray = true ∧ w.r = r ∧ w.holder = h then { w with elapsed := 0, queued := false }
        else if w.r = r ∧ w.holder = h ∧ w.gen = g then { w with queued := false } else w) }
  | .evict v i =>
    { u with
      verdicts := u.verdicts.filter (fun x => x.verdict != .evict v i)
      presence := u.presence.map (fun w =>
        if stray = true ∧ w.station = v then { w with elapsed := 0, queued := false }
        else if w.station = v ∧ w.inc = i then { w with queued := false } else w) }

theorem State.ownVerdictEnds_eq (s : State) (stray : Bool) (v : Verdict) :
    s.ownVerdictEnds stray v = { s with tu := s.tu.verdictEnded stray v } := by
  rcases v with ⟨r, h, g⟩ | ⟨v, i⟩
  · rw [State.ownVerdictEnds, State.endVerdict_expire]
    rcases stray with _ | _
    · simp only [TimerUnit.verdictEnded, Bool.false_eq_true, false_and, if_false]
    · simp only [if_true, TimerUnit.verdictEnded, true_and, State.restartWatchOf, State.setTu, List.map_map]
      refine congrArg (fun ws => ({ s with tu := { s.tu with
        verdicts := s.tu.verdicts.filter (fun i => i.verdict != .expire r h g), expiry := ws } } : State)) ?_
      refine List.map_congr_left (fun w _ => ?_)
      simp only [Function.comp_apply, ExpiryWatch.on, Bool.and_eq_true, beq_iff_eq]
      by_cases hw : w.r = r ∧ w.holder = h
      · by_cases hg : w.gen = g <;> simp [hw, hg]
      · have hg : ¬ (w.r = r ∧ w.holder = h ∧ w.gen = g) := fun hg => hw ⟨hg.1, hg.2.1⟩
        rw [if_neg hg, if_neg hw]
  · rw [State.ownVerdictEnds, State.endVerdict_evict]
    rcases stray with _ | _
    · simp only [TimerUnit.verdictEnded, Bool.false_eq_true, false_and, if_false]
    · simp only [if_true, TimerUnit.verdictEnded, true_and, State.restartWatchOf, State.setTu, List.map_map]
      refine congrArg (fun ws => ({ s with tu := { s.tu with
        verdicts := s.tu.verdicts.filter (fun x => x.verdict != .evict v i), presence := ws } } : State)) ?_
      refine List.map_congr_left (fun w _ => ?_)
      simp only [Function.comp_apply]
      by_cases hw : w.station = v
      · by_cases hi : w.inc = i <;> simp [hw, hi]
      · have hi : ¬ (w.station = v ∧ w.inc = i) := fun hi => hw hi.1
        rw [if_neg hi, if_neg hw]

theorem TimerUnit.verdictEnded_gone (u : TimerUnit) (stray : Bool) (v : Verdict) :
    ∀ i ∈ (u.verdictEnded stray v).verdicts, i.verdict ≠ v := by
  intro i hi
  rcases v with ⟨r, h, g⟩ | ⟨v, k⟩
  · exact bne_iff_ne.mp (List.mem_filter.mp hi).2
  · exact bne_iff_ne.mp (List.mem_filter.mp hi).2

theorem TimerUnit.verdictEnded_verdicts (u : TimerUnit) (stray : Bool) (v : Verdict) :
    ∀ i ∈ (u.verdictEnded stray v).verdicts, i ∈ u.verdicts := by
  intro i hi
  rcases v with ⟨r, h, g⟩ | ⟨v, k⟩
  · exact (List.mem_filter.mp hi).1
  · exact (List.mem_filter.mp hi).1

/-- The watches stand where they stood. -/
theorem TimerUnit.verdictEnded_watch (u : TimerUnit) (stray : Bool) (v : Verdict) :
    ∀ w ∈ (u.verdictEnded stray v).expiry, ∃ w' ∈ u.expiry, w'.r = w.r ∧ w'.holder = w.holder := by
  intro w hw
  rcases v with ⟨r, h, g⟩ | ⟨v, k⟩
  · obtain ⟨w', hw', rfl⟩ := List.mem_map.mp hw
    refine ⟨w', hw', ?_⟩
    split
    · exact ⟨rfl, rfl⟩
    · split <;> exact ⟨rfl, rfl⟩
  · exact ⟨w, hw, rfl, rfl⟩

theorem TimerUnit.verdictEnded_evict_expiry (u : TimerUnit) (stray : Bool) (v : Station) (i : Byte) :
    (u.verdictEnded stray (.evict v i)).expiry = u.expiry := rfl

theorem TimerUnit.verdictEnded_stray_expire (u : TimerUnit) (r : Resource) (h : Station) (g : Word16) :
    ∀ w ∈ (u.verdictEnded true (.expire r h g)).expiry, w.r = r → w.holder = h → w.elapsed = 0 ∧ w.queued = false := by
  intro w hw
  obtain ⟨w', -, rfl⟩ := List.mem_map.mp hw
  split
  · exact fun _ _ => ⟨rfl, rfl⟩
  · next hno =>
    intro hr hh
    split at hr <;> split at hh
    all_goals exact absurd ⟨rfl, hr, hh⟩ hno

theorem TimerUnit.verdictEnded_presence (u : TimerUnit) (stray : Bool) (v : Verdict) :
    ∀ w ∈ (u.verdictEnded stray v).presence, ∃ w' ∈ u.presence, w'.station = w.station := by
  intro w hw
  rcases v with ⟨r, h, g⟩ | ⟨v, k⟩
  · exact ⟨w, hw, rfl⟩
  · obtain ⟨w', hw', rfl⟩ := List.mem_map.mp hw
    refine ⟨w', hw', ?_⟩
    split
    · rfl
    · split <;> rfl

theorem TimerUnit.verdictEnded_stray_evict (u : TimerUnit) (v : Station) (i : Byte) :
    ∀ w ∈ (u.verdictEnded true (.evict v i)).presence, w.station = v → w.elapsed = 0 ∧ w.queued = false := by
  intro w hw
  obtain ⟨w', -, rfl⟩ := List.mem_map.mp hw
  split
  · exact fun _ => ⟨rfl, rfl⟩
  · next hno =>
    intro hv
    split at hv
    all_goals exact absurd ⟨rfl, hv⟩ hno

/-! ## The own EXPIRE -/

/-- The Timer Unit after the EXPIRE of another station's slot. -/
def State.expireTimers (s : State) (r : Resource) (h : Station) (g : Word16) : TimerUnit :=
  if s.replica.entries[r].holdsAt h g then
    (s.tu.slotRemoved s.own r h).slotsCreated s.own s.kp.permit.isLapsed r
      (grantSlots (s.replica.entries[r].dropHolder h).promote.2)
  else s.tu

theorem State.expireRule_other {s : State} (hq : s.lu.sending = false) {r : Resource} {h : Station} (g : Word16)
    (ho : h ≠ s.own) (v : Station) : ∃ l, s.expireRule r h g = { s with
      lu := { s.lu with current := l }
      replica := { s.replica with
        entries := s.replica.entries.set r.val (tableRule s.replica.entries[r] v (.expire r h g)).1 }
      tu := s.expireTimers r h g
      nu := s.nu.arriveAll (s.grantNotes r (tableRule s.replica.entries[r] v (.expire r h g)).2) } := by
  rw [State.expireTimers]
  rcases hh : s.replica.entries[r].holdsAt h g with _ | _
  · refine ⟨s.lu.current, ?_⟩
    rw [State.expireRule_misses hh, (Misses.expire hh v r).1]
    exact (State.setEntries_self s r).symm.trans rfl
  · obtain ⟨l, hl⟩ := State.expireRule_hits hq hh
    refine ⟨l, ?_⟩
    rw [hl]
    simp only [tableRule, hh, if_true, ho, false_and, if_false, List.nil_append]

/-- The watch on the slot removed is closed. -/
theorem State.expireTimers_closed {s : State} {r : Resource} {h : Station} {g : Word16} (ho : h ≠ s.own)
    (hw : s.replica.entries[r].waits h = false) (hh : s.replica.entries[r].holdsAt h g = true) :
    ∀ w ∈ (s.expireTimers r h g).expiry, w.r = r → w.holder ≠ h := by
  intro w hmem hr hv
  rw [State.expireTimers, if_pos hh] at hmem
  have hold := TimerUnit.slotsCreated_expiry_of_others hv _ _ (Entry.created_of_dropHolder hw) hmem
  rw [TimerUnit.slotRemoved, if_neg ho] at hold
  have hon := (List.mem_filter.mp hold).2
  simp [ExpiryWatch.on, hr, hv] at hon

/-- What an own EXPIRE of another station's slot does. -/
theorem State.applyRule_ownExpire {s : State} {f : Frame} {r : Resource} {h : Station} {g : Word16}
    (hq : s.lu.sending = false) (hb : f.body = .expire r h g) (ho : h ≠ s.own) :
    ∃ l, s.applyRule true true f = ({ s with
      lu := { s.lu with current := l }
      replica := { s.replica with
        tsn := s.replica.tsn + 1
        entries := if s.validActor f then
          s.replica.entries.set r.val (tableRule s.replica.entries[r] s.own (.expire r h g)).1 else s.replica.entries }
      tu := (if s.validActor f then s.expireTimers r h g else s.tu).verdictEnded (!s.validActor f) (.expire r h g)
      nu := s.nu.arriveAll (if s.validActor f then
        s.grantNotes r (tableRule s.replica.entries[r] s.own (.expire r h g)).2 else []) }, Report.nothing) := by
  rw [State.applyRule]
  simp only [hb, if_true, State.ownVerdictEnds_eq]
  rcases hv : s.validActor f with _ | _
  · exact ⟨s.lu.current, rfl⟩
  · obtain ⟨l, hl⟩ := State.expireRule_other hq g ho s.own
    refine ⟨l, ?_⟩
    rw [if_pos rfl, hl]
    rfl

/-! ## The own EVICT -/

/-- What an own EVICT of another station does. -/
theorem State.applyRule_ownEvict {s : State} {f : Frame} {v : Station} {i : Byte} (hb : f.body = .evict v i)
    (ho : v ≠ s.own) {hit : Bool}
    (hhit : hit = (s.validActor f && (s.rosterOf v).state != .absent && (s.rosterOf v).inc == i)) :
    s.applyRule true true f = ((if hit then s.removeAndTell true v .evicted else s).advanceTsn.ownVerdictEnds
      (!s.validActor f) (.evict v i), Report.nothing) := by
  have hown : (v == s.own) = false := beq_eq_false_iff_ne.mpr ho
  rw [State.applyRule]
  simp only [hb, hhit, if_true, hown, Bool.and_false]
  rfl

/-- Settles O41: `TimerUnit.verdictEnded` after the rule of each verdict. -/
theorem ownVerdictAccepted : Obligations.OwnVerdictAccepted := by
  intro s a valid hsent hst hsender hvalid
  have hlive : s.sc.station.live = true := by rw [hst]; rfl
  have hv : s.ownTaken.validActor a.frame = valid := by
    rw [hvalid, State.validActor, hsender]
    rfl
  refine ⟨fun r h g ho hsrc hbody hwaits => ?expire, fun v i hit ho hsrc hbody hlaw hhit => ?evict⟩
  case expire =>
    have hexec := hsent.exec_applied (by rw [hsrc]; rfl) hlive (by rw [hbody]; rfl)
    obtain ⟨l, happ⟩ := State.applyRule_ownExpire (s := s.ownTaken) rfl hbody ho
    rw [State.applyLive_own_nothing happ, hv] at hexec
    obtain ⟨t, hexec, hs⟩ := exists_settled hexec
    refine ⟨t, hexec, hs.replica, hs.notes (n := s.nu) rfl, ?_, fun h1 hh w hw hr hhold => ?_, fun h1 w hw => ?_,
      hs.requests, hs.config, hs.tm, hs.kp⟩
    · rw [hs.tu_verdicts]
      exact TimerUnit.verdictEnded_gone _ _ _
    · rw [hs.tu_expiry] at hw
      obtain ⟨w', hw', hr', hh'⟩ := TimerUnit.verdictEnded_watch _ _ _ w hw
      rw [h1, if_pos rfl] at hw'
      exact State.expireTimers_closed (s := s.ownTaken) ho hwaits hh w' hw' (hr'.trans hr) (hh'.trans hhold)
    · rw [hs.tu_expiry] at hw
      subst h1
      exact TimerUnit.verdictEnded_stray_expire _ r h g w hw
  case evict =>
    have hexec := hsent.exec_applied (by rw [hsrc]; rfl) hlive (by rw [hbody]; rfl)
    have happ := State.applyRule_ownEvict (s := s.ownTaken) hbody ho (hit := hit) (by rw [hv]; exact hhit)
    rw [State.applyLive_own_nothing happ, hv, State.ownVerdictEnds_eq] at hexec
    obtain ⟨t, hnext, hs⟩ := exists_settled hexec
    have hgone : ∀ x ∈ t.tu.verdicts, x.verdict ≠ .evict v i := by
      rw [hs.tu_verdicts]
      exact TimerUnit.verdictEnded_gone _ _ _
    have hstray : valid = false → ∀ w ∈ t.tu.presence, w.station = v → w.elapsed = 0 ∧ w.queued = false := by
      intro h w hw
      rw [hs.tu_presence] at hw
      subst h
      exact TimerUnit.verdictEnded_stray_evict _ v i w hw
    rcases hit with _ | _
    · exact ⟨t, hnext, by rw [hs.replica]; rfl, hs.nu_but_irq, nofun, fun _ => hs.replica, hs.sc, hgone, hstray,
        hs.requests, hs.config, hs.tm, hs.kp⟩
    · have hremoved := State.removeAndTell_removed (s := s.ownTaken) rfl (v := v) hlaw.1 true .evicted
      obtain ⟨hstands, hmis⟩ := Removed.stands (s := s) hremoved ho hlaw hs (TimerUnit.verdictEnded_evict_expiry _ _ v i)
        (TimerUnit.verdictEnded_verdicts _ _ _) (TimerUnit.verdictEnded_presence _ _ _)
      refine ⟨t, hnext, hstands.tsn, ?_, fun _ => ⟨hstands.removes, hstands.roster, hmis, hstands.presence⟩, nofun,
        ?_, hgone, hstray, hstands.requests, hstands.config, hstands.tm, hstands.kp⟩
      · rw [hstands.notes, State.departureTold_other (s := s.ownTaken) ho]
        simp only [true_and, if_true]
        rfl
      · rw [hstands.sc]
        simp only [true_and]

end Sys2Proof.Machine
end

section
/-! READY (R40, R41, R48, R64, R68, R140). -/

namespace Sys2Proof.Machine

/-- The roster without the part of the pair that the provider of `v` has (R40). -/
def readyRoster (roster : Vector RosterEntry 32) (v : Station) : Vector RosterEntry 32 :=
  match roster[v].provider with
  | some x => roster.set x.val { roster[x] with providingFor := none }
  | none => roster

theorem readyRoster_some {roster : Vector RosterEntry 32} {v x : Station} (h : roster[v].provider = some x) :
    readyRoster roster v = roster.set x.val { roster[x] with providingFor := none } := by
  rw [readyRoster, h]

theorem readyRoster_none {roster : Vector RosterEntry 32} {v : Station} (h : roster[v].provider = none) :
    readyRoster roster v = roster := by
  rw [readyRoster, h]

/-- The roster with `v` MEMBER and its pairing ended (R40). -/
def rosterReady (roster : Vector RosterEntry 32) (v : Station) : Vector RosterEntry 32 :=
  (readyRoster roster v).set v.val { (readyRoster roster v)[v] with state := .member, provider := none }

theorem roster_set_twice (xs : Vector RosterEntry 32) (v : Station) :
    (xs.set v.val { xs[v] with provider := none }).set v.val
        { (xs.set v.val { xs[v] with provider := none })[v] with state := .member, provider := none }
      = xs.set v.val { xs[v] with state := .member, provider := none } := by
  rw [roster_set, if_pos rfl, Vector.set_set]

theorem readyRoster_inc (roster : Vector RosterEntry 32) (v y : Station) : (readyRoster roster v)[y].inc = roster[y].inc := by
  rcases h : roster[v].provider with _ | x
  · rw [readyRoster_none h]
  · rw [readyRoster_some h, roster_set]
    by_cases hy : y = x
    · rw [if_pos hy, hy]
    · rw [if_neg hy]

theorem rosterReady_inc (roster : Vector RosterEntry 32) (v y : Station) : (rosterReady roster v)[y].inc = roster[y].inc := by
  rw [rosterReady, roster_set]
  by_cases hy : y = v
  · subst hy
    rw [if_pos rfl]
    exact readyRoster_inc ..
  · rw [if_neg hy, readyRoster_inc]

/-- The first half of R40. -/
def State.endOwnPairing (s : State) (v : Station) : State :=
  match (s.rosterOf v).provider with
  | some x => s.endPairing x v
  | none => s

/-- READY applied (R40, R48). -/
theorem State.readyRule_form (s : State) (live : Bool) (v : Station) : s.readyRule live v = { s with
    replica := { s.replica with roster := rosterReady s.replica.roster v }
    sc := { s.sc with shadow := if s.replica.roster[v].provider = some s.own then none else s.sc.shadow }
    nu := s.nu.arriveAll (if live = true ∧ v ≠ s.own then [.membership v .joined] else []) } := by
  have hset : ∀ x : State, x.setRosterEntry v { x.rosterOf v with state := .member, provider := none }
      = { x with replica := { x.replica with
        roster := x.replica.roster.set v.val { x.replica.roster[v] with state := .member, provider := none } } } :=
    fun _ => rfl
  have hpair : s.endOwnPairing v = { s with
      replica := { s.replica with roster := (s.endOwnPairing v).replica.roster }
      sc := { s.sc with shadow := if s.replica.roster[v].provider = some s.own then none else s.sc.shadow } }
      ∧ (s.endOwnPairing v).replica.roster.set v.val
          { (s.endOwnPairing v).replica.roster[v] with state := .member, provider := none }
        = rosterReady s.replica.roster v := by
    rw [rosterReady]
    have hv : s.rosterOf v = s.replica.roster[v] := rfl
    rcases hp : s.replica.roster[v].provider with _ | x
    · have hsame : s.endOwnPairing v = s := by rw [State.endOwnPairing, hv, hp]
      rw [hsame, readyRoster_none hp]
      exact ⟨rfl, rfl⟩
    · have hend : s.endOwnPairing v = s.endPairing x v := by rw [State.endOwnPairing, hv, hp]
      rw [hend, State.endPairing_form, readyRoster_some hp]
      refine ⟨?_, ?_⟩
      · simp only [Option.some.injEq]
      · exact roster_set_twice (s.replica.roster.set x.val { s.replica.roster[x] with providingFor := none }) v
  obtain ⟨hform, hroster⟩ := hpair
  have hlisted : (s.endOwnPairing v).setRosterEntry v
        { (s.endOwnPairing v).rosterOf v with state := .member, provider := none }
      = { s with
        replica := { s.replica with roster := rosterReady s.replica.roster v }
        sc := { s.sc with shadow := if s.replica.roster[v].provider = some s.own then none else s.sc.shadow } } := by
    rw [hset, hroster, hform]
  have hsteps : s.readyRule live v = (if live = true ∧ v ≠ s.own then
      ((s.endOwnPairing v).setRosterEntry v
        { (s.endOwnPairing v).rosterOf v with state := .member, provider := none }).note (.membership v .joined)
      else (s.endOwnPairing v).setRosterEntry v
        { (s.endOwnPairing v).rosterOf v with state := .member, provider := none }) := rfl
  rw [hsteps, hlisted]
  by_cases hc : live = true ∧ v ≠ s.own
  · rw [if_pos hc, if_pos hc]
    rfl
  · rw [if_neg hc, if_neg hc]
    rfl

/-- READY of a station listed as JOINING, own or of another (R33, R40). -/
theorem State.applyRule_ready {s : State} {f : Frame} (live own : Bool) (hb : f.body = .ready)
    (h : s.listedAs f (fun st => st == .joining) = true) :
    s.applyRule live own f = ((s.readyRule live f.sender).advanceTsn,
      { Report.nothing with ready := if own then some true else none }) := by
  rw [State.applyRule]
  simp only [hb, h, if_true]

/-- This station after its own control frame of kind `k` has been accepted (R91, R97, R98, R117). -/
def State.controlTaken (s : State) (k : ControlKind) : State :=
  { s.ownTaken with sc := { s.sc with control := s.sc.control.eraseP (fun c => c.kind == k) } }

theorem State.ownLeft_control {s : State} {a : Attempt} {k : ControlKind} (hw : a.withdrawn = false)
    (hsrc : a.source = .control k) : s.ownLeft a = s.controlTaken k := by
  simp only [State.ownLeft, State.ownFrameLeaves, hw, hsrc, Bool.false_eq_true, if_false]
  rfl

theorem State.takeReport_ready (s : State) (ok : Bool) :
    s.takeReport { Report.nothing with ready := some ok } = s.takeReadyReport ok := rfl

/-- The own READY applied makes this station MEMBER (R41, R68). -/
theorem State.applyLive_ownReady {s : State} {f : Frame} (hb : f.body = .ready) (hs : f.sender = s.own)
    (hst : s.sc.station = .synced) (h : s.listedAs f (fun st => st == .joining) = true) :
    s.applyLive true f = ((s.readyRule true s.own).advanceTsn.followInc).enterMember.note (.station .member .joined) := by
  have hsynced : ((s.readyRule true s.own).advanceTsn.followInc).sc.station = .synced := by
    rw [State.readyRule_form]
    exact hst
  rw [State.applyLive_own, State.applyRule_ready true true hb h, hs]
  refine (State.takeReport_ready _ true).trans ?_
  rw [State.takeReadyReport, if_pos hsynced]
  rfl

/-- Settles O46: `State.readyRule_form`, and entry to MEMBER after the own READY. -/
theorem readyMakesMember : Obligations.ReadyMakesMember := by
  intro s v inc roster hjoining hinc hroster
  have hready : readyRoster s.replica.roster v = roster := by
    rw [hroster, readyRoster] <;> rfl
  refine ⟨fun a hsent hw hv hst hsrc hbody hsender hainc => ?own, fun f hh hv hst hsender hbody hfinc hstep => ?other⟩
  case own =>
    subst hv
    have hlisted : ∀ x : State, x.replica = s.replica → x.own = s.own →
        x.listedAs a.frame (fun st => st == .joining) = true := fun x hx ho => by
      rw [State.listedAs, State.rosterOf, hsender, hx, hainc, hinc]
      exact Bool.and_eq_true_iff.mpr ⟨beq_iff_eq.mpr hjoining, beq_self_eq_true _⟩
    have hlive : s.sc.station.live = true := by rw [hst]; rfl
    have hexec := hsent.exec
    rw [State.ownLeft_control hw hsrc, State.handOn_live_state (by exact hlive) (by rw [hbody]; rfl),
      State.applyLive_ownReady (s := s.controlTaken .ready) hbody hsender hst (hlisted _ rfl rfl),
      State.readyRule_form, State.enterMember_eq] at hexec
    obtain ⟨t, hexec, hs⟩ := exists_settled hexec
    refine ⟨t, hexec, ?station, ?attempt, ?requeue, ?inc, ?replica, ?expiry, ?presence, ?verdicts, ?timer, ?kp, ?notes,
      hs.requests, hs.config, hs.tm⟩
    case station | attempt | requeue =>
      rw [hs.sc]
      rfl
    case inc =>
      rw [hs.sc, hinc]
      exact rosterReady_inc s.replica.roster s.own s.own
    case replica =>
      rw [hs.replica, ← hready]
      rfl
    case expiry => exact hs.tu_expiry
    case presence => exact hs.tu_presence
    case verdicts => exact hs.tu_verdicts
    case timer => exact hs.tu_presenceTimer
    case kp => exact hs.kp
    case notes =>
      refine (hs.notes (n := s.nu) (xs := [.station .member .joined]) ?_)
      have htold : (if true = true ∧ s.own ≠ s.own then [Note.membership s.own .joined] else []) = [] :=
        if_neg (fun h => h.2 rfl)
      exact (congrArg (fun xs => (s.nu.arriveAll xs).arrive (.station .member .joined)) htold).trans rfl
  case other =>
    subst hsender
    have hlive : s.sc.station.live = true := by rw [hst]; rfl
    have hexec := hh.exec_handOn hv
    have hlisted : ((s.heard f).inStep f).listedAs f (fun st => st == .joining) = true := by
      rw [hinc] at hfinc
      exact Bool.and_eq_true_iff.mpr ⟨beq_iff_eq.mpr hjoining, beq_iff_eq.mpr hfinc⟩
    rw [State.handOn_live_state (by exact hlive) (by rw [hbody]; rfl), State.applyLive_foreign_nothing (s := s.heard f)
      (by exact hstep) (State.applyRule_ready true false hbody hlisted), State.readyRule_form] at hexec
    obtain ⟨t, hexec, hs⟩ := exists_settled hexec
    refine ⟨t, hexec, ?_, ?_, ?_, hs.requests, hs.config, hs.tm, hs.kp⟩
    · rw [hs.replica, ← hready]
      rfl
    · refine (hs.notes (n := s.nu) (xs := [.membership f.sender .joined]) ?_)
      exact congrArg s.nu.arriveAll (if_pos ⟨rfl, hv⟩)
    · rw [hs.sc, ← rosterReady_inc s.replica.roster f.sender s.own]
      rfl

end Sys2Proof.Machine
end

section
/-! The end of LEAVING (R43, R45, R75, R76). -/

namespace Sys2Proof.Machine

/-! ## Own removals -/

theorem removalRule_grants {e : Entry} {v : Station} (h : ¬(e.holds v = true ∧ e.waits v = true)) :
    ∀ g ∈ (removalRule e v).2, g.station ≠ v := by
  rw [removalRule]
  rcases hh : e.holds v with _ | _
  · rw [if_neg (by simp)]
    split
    · exact Entry.grants_of_dropWaiter e v
    · exact nofun
  · rw [if_pos rfl]
    exact Entry.grants_of_dropHolder (Bool.eq_false_iff.mpr (fun hw => h ⟨hh, hw⟩))

/-- This station is granted nothing by its own removal. -/
theorem State.removalGrants_own {s : State} (h : s.oneRole s.own) : s.removalGrants s.own = [] := by
  have hnone : ∀ r : Resource, s.grantNotes r (removalRule s.replica.entries[r] s.own).2 = [] := fun r => by
    rw [State.grantNotes, List.filter_eq_nil_iff.mpr, List.map_nil]
    exact fun g hg => by simpa using removalRule_grants (h r) g hg
  simp only [State.removalGrants, hnone, List.append_eq_nil_iff, List.flatMap_eq_nil_iff, implies_true, and_self]

/-- The own removal, told to nobody: what it leaves of the state. -/
theorem Removed.own_frame {s x : State} {live : Bool} {c : MembershipCause} (h : s.oneRole s.own)
    (hx : Removed s.own (s.departureTold live s.own c) s x) : ∃ entries roster tu l shadow, x = { s with
      replica := { s.replica with entries := entries, roster := roster }
      sc := { s.sc with shadow := shadow }, tu := tu, lu := { s.lu with current := l } } := by
  obtain ⟨entries, roster, tu, l, shadow, hxf⟩ := hx.frame
  have htold : s.departureTold live s.own c = [] := if_neg (fun h => h.2.2 rfl)
  rw [State.removalGrants_own h, htold] at hxf
  exact ⟨entries, roster, tu, l, shadow, hxf⟩

/-! ## The end of LEAVING -/

/-- What the end of LEAVING with intent `i` leaves (R76). -/
structure LeaveEnds (i : LeaveIntent) (s t : State) : Prop where
  replica : t.replica = Replica.cleared
  tu : t.tu = TimerUnit.afterReset
  shadow : t.sc.shadow = none
  requests : t.requests = s.requests
  config : t.config = s.config
  tm : t.tm = s.tm
  kp : t.kp = s.kp
  lines : ∀ y : Fin 8, t.gou.active[y] = false
  stopping : i = .stopping → t.sc.station = .offline ∧ t.sc.control = []
    ∧ { t.nu with irq := s.nu.irq } = s.nu.arrive (.station .offline .left)
  rejoin : i = .rejoin → t.sc.station = .joinWait ∧ t.sc.attemptNo = 0 ∧ t.sc.ownInc = 0 ∧ t.sc.joinAccepted = false
    ∧ t.sc.control = [{ kind := .join, count := 0 }] ∧ { t.nu with irq := s.nu.irq } = s.nu

theorem SettlesTo.tu_cleared {e t : State} (h : SettlesTo e t) (he : e.tu = TimerUnit.afterReset) :
    t.tu = TimerUnit.afterReset := by
  have hholds : t.tu.holds = [] := by
    rw [h.holds, he]
    rfl
  rw [h.tu_but_holds, he, hholds]
  rfl

theorem State.leavingEnd_stopping {s : State} {x : LeaveReplica} (h : s.sc.station = .leaving .stopping x) :
    ∃ lu, s.leavingEnd = { s with
      lu := lu, replica := Replica.cleared, tu := TimerUnit.afterReset
      sc := { s.sc with control := [], shadow := none, station := .offline }
      nu := s.nu.arrive (.station .offline .left) } := by
  obtain ⟨l, hl⟩ := s.clearReplica_form
  rw [State.leavingEnd, h]
  simp only [hl, State.lineOff]
  exact ⟨_, rfl⟩

theorem State.leavingEnd_rejoin {s : State} {x : LeaveReplica} (h : s.sc.station = .leaving .rejoin x) :
    s.leavingEnd = s.joinStart := by
  rw [State.leavingEnd, h]

/-- LEAVING ends in a state that differs from `s` in what its end clears. -/
theorem LeaveEnds.of_settles {s z t : State} {i : LeaveIntent} {x : LeaveReplica}
    (hz : ∃ replica sc tu lu, z = { s with replica := replica, sc := sc, tu := tu, lu := lu })
    (hst : z.sc.station = .leaving i x) (ht : SettlesTo z.leavingEnd t) : LeaveEnds i s t := by
  obtain ⟨replica, sc, tu, lu, rfl⟩ := hz
  rcases i with _ | _
  · obtain ⟨lu', hl⟩ := State.leavingEnd_stopping hst
    rw [hl] at ht
    exact ⟨ht.replica, ht.tu_cleared rfl, by rw [ht.sc], ht.requests, ht.config, ht.tm, ht.kp, ht.lines_off nofun,
      fun _ => ⟨by rw [ht.sc], by rw [ht.sc], ht.notes (n := s.nu) (xs := [.station .offline .left]) rfl⟩, nofun⟩
  · obtain ⟨l, hl⟩ := State.joinStart_eq { s with replica := replica, sc := sc, tu := tu, lu := lu }
    rw [State.leavingEnd_rejoin hst, hl] at ht
    exact ⟨ht.replica, ht.tu_cleared rfl, by rw [ht.sc], ht.requests, ht.config, ht.tm, ht.kp, ht.lines_off nofun, nofun,
      fun _ => ⟨by rw [ht.sc], by rw [ht.sc], by rw [ht.sc], by rw [ht.sc], by rw [ht.sc], ht.nu_but_irq⟩⟩

/-! ## The three ways -/

theorem State.ownLeft_form (s : State) (a : Attempt) : ∃ control shadow tu, s.ownLeft a = { s with
    lu := s.lineAfterOwn, sc := { s.sc with control := control, shadow := shadow }, tu := tu } := by
  have hsource : ∀ x : State, ∃ control shadow tu, x.ownFrameLeaves a = { x with
      sc := { x.sc with control := control, shadow := shadow }, tu := tu } := fun x => by
    rw [State.ownFrameLeaves]
    split
    · exact ⟨x.sc.control, x.sc.shadow, x.tu, rfl⟩
    · split
      case h_1 k => exact ⟨_, x.sc.shadow, x.tu, rfl⟩
      case h_2 i =>
        rw [State.segmentAccepted]
        split
        · split
          · exact ⟨x.sc.control, _, x.tu, rfl⟩
          · exact ⟨x.sc.control, x.sc.shadow, x.tu, rfl⟩
        · exact ⟨x.sc.control, x.sc.shadow, x.tu, rfl⟩
      case h_3 => exact ⟨x.sc.control, x.sc.shadow, _, rfl⟩
      all_goals exact ⟨x.sc.control, x.sc.shadow, x.tu, rfl⟩
  obtain ⟨control, shadow, tu, h⟩ := hsource { s with lu := s.lineAfterOwn }
  rw [State.ownLeft, h]
  exact ⟨control, shadow, _, rfl⟩

theorem State.applyRule_ownLeave {s : State} {f : Frame} (hb : f.body = .leave) : ∃ ok,
    s.applyRule true true f = ((if s.listedAs f (fun st => st != .absent) then s.removeAndTell true f.sender .left
      else s).advanceTsn, { Report.nothing with leave := some ok }) := by
  rw [State.applyRule]
  simp only [hb, if_true]
  exact ⟨_, rfl⟩

theorem State.takeReport_leave (s : State) (ok : Bool) :
    s.takeReport { Report.nothing with leave := some ok } = s.leavingEnd := rfl

theorem State.takeReport_evicted (s : State) : s.takeReport { Report.nothing with evicted := true } = s.ownEviction := rfl

/-- The own LEAVE accepted while the replica is live: applied or not, LEAVING ends (R43, R45). -/
theorem State.applyLive_ownLeave {s : State} {f : Frame} (hq : s.lu.sending = false) (hb : f.body = .leave)
    (hs : f.sender = s.own) (h : s.oneRole s.own) : ∃ replica sc tu lu,
      s.applyLive true f = State.leavingEnd { s with replica := replica, sc := sc, tu := tu, lu := lu }
      ∧ sc.station = s.sc.station := by
  obtain ⟨ok, happ⟩ := State.applyRule_ownLeave (s := s) hb
  rw [State.applyLive_own, happ, hs]
  rcases s.listedAs f (fun st => st != .absent) with _ | _
  · exact ⟨_, _, s.tu, s.lu, rfl, rfl⟩
  · obtain ⟨entries, roster, tu, l, shadow, hx⟩ := (State.removeAndTell_removed hq h true .left).own_frame h
    simp only [if_true, hx]
    exact ⟨_, _, _, _, rfl, rfl⟩

/-- An EVICT of this station by another, applied (R45). -/
theorem State.applyLive_ownEvicted {s : State} {f : Frame} {i : Byte} (hq : s.lu.sending = false)
    (hb : f.body = .evict s.own i) (hhit : (s.validActor f && (s.rosterOf s.own).state != .absent
      && (s.rosterOf s.own).inc == i) = true) (h : s.oneRole s.own) (hstep : f.baseTsn = s.replica.tsn) :
    ∃ replica shadow inc tu lu, s.applyLive false f = State.ownEviction { s with
      replica := replica, sc := { s.sc with shadow := shadow, ownInc := inc }, tu := tu, lu := lu } := by
  have happ : (s.inStep f).applyRule true false f = (((s.inStep f).removeAndTell true s.own .evicted).advanceTsn,
      { Report.nothing with evicted := true }) := by
    have hown : (s.own == (s.inStep f).own) = true := beq_self_eq_true _
    have hhit' : ((s.inStep f).validActor f && ((s.inStep f).rosterOf s.own).state != .absent
      && ((s.inStep f).rosterOf s.own).inc == i) = true := hhit
    rw [State.applyRule]
    simp only [hb, hhit', if_true, hown, Bool.and_self]
    rfl
  obtain ⟨entries, roster, tu, l, shadow, hx⟩ :=
    Removed.own_frame (s := s.inStep f) h (State.removeAndTell_removed (s := s.inStep f) hq h true .evicted)
  rw [State.applyLive_foreign (fun _ => hstep), happ]
  have hx' : (s.inStep f).removeAndTell true s.own .evicted = { s with
      replica := { (s.inStep f).replica with entries := entries, roster := roster }
      sc := { s.sc with shadow := shadow }, tu := tu, lu := { s.lu with current := l } } := hx
  simp only [hx']
  exact ⟨_, shadow, _, _, _, rfl⟩

/-- Settles O43: each way reaches `State.leavingEnd` with nothing told before. -/
theorem leavingEnds : Obligations.LeavingEnds := by
  intro s i x c hst hc hrole
  have hends : ∃ (z t : State), exec c s = .next t ∧ SettlesTo z.leavingEnd t ∧ z.sc.station = .leaving i x
      ∧ ∃ replica sc tu lu, z = { s with replica := replica, sc := sc, tu := tu, lu := lu } := by
    rcases hc with ⟨a, rfl, hsent, hbody, hsender⟩ | ⟨a, l, hfail, hw, hsrc, hlimit⟩
      | ⟨f, rfl, hh, hx, hsender, hbody, hlisted, hstep, hvalid⟩
    · obtain ⟨control, shadow, tu, hleft⟩ := s.ownLeft_form a
      have hexec := hsent.exec
      have hst' : (s.ownLeft a).sc.station = .leaving i x := by rw [hleft]; exact hst
      rcases x with _ | _
      · have hlive : (s.ownLeft a).sc.station.live = true := by rw [hst']; rfl
        obtain ⟨replica, sc, tu', lu, happ, hsc⟩ := State.applyLive_ownLeave (s := s.ownLeft a) (by rw [hleft]; rfl) hbody
          (by rw [hleft]; exact hsender) (by rw [hleft]; exact hrole)
        rw [State.handOn_live_state hlive (by rw [hbody]; rfl), happ] at hexec
        obtain ⟨t, hexec, hs⟩ := exists_settled hexec
        exact ⟨_, t, hexec, hs, hsc.trans hst', by rw [hleft]; exact ⟨_, _, _, _, rfl⟩⟩
      · have hend : (s.ownLeft a).handOn true a.frame = (s.ownLeft a).leavingEnd := by
          unfold State.handOn
          simp only [hst', hbody, if_true]
        rw [hend] at hexec
        obtain ⟨t, hexec, hs⟩ := exists_settled hexec
        exact ⟨_, t, hexec, hs, hst', by rw [hleft]; exact ⟨_, _, _, _, rfl⟩⟩
    · have hexec := hfail.exec_abandons hw hlimit
      rw [hsrc] at hexec
      obtain ⟨t, hexec, hs⟩ := exists_settled (e := ((s.setLu l).removeControl .leave).leavingEnd) hexec
      exact ⟨_, t, hexec, hs, hst, _, _, _, _, rfl⟩
    · have hlive : (s.heard f).sc.station.live = true := by
        subst hx
        exact (congrArg StationState.live hst).trans rfl
      have hexec := hh.exec_handOn hsender
      obtain ⟨replica, shadow, inc, tu, lu, happ⟩ := State.applyLive_ownEvicted (s := s.heard f) hh.not_sending hbody
        (by
          have h1 : (s.heard f).validActor f = true := hvalid
          rw [h1, Bool.true_and]
          exact Bool.and_eq_true_iff.mpr ⟨bne_iff_ne.mpr hlisted, beq_self_eq_true _⟩) hrole hstep
      rw [State.handOn_live_state hlive (by rw [hbody]; rfl), happ] at hexec
      have hend : ∀ z : State, z.sc.station = .leaving i x → z.ownEviction = z.leavingEnd := fun z hz => by
        rw [State.ownEviction, hz]
      rw [hend _ (by exact hst)] at hexec
      obtain ⟨t, hexec, hs⟩ := exists_settled hexec
      exact ⟨_, t, hexec, hs, hst, _, _, _, _, rfl⟩
  obtain ⟨z, t, hexec, hs, hz, hform⟩ := hends
  have h := LeaveEnds.of_settles hform hz hs
  exact ⟨t, hexec, h.replica, h.tu, h.shadow, h.requests, h.config, h.tm, h.kp, h.lines, h.stopping, h.rejoin⟩

end Sys2Proof.Machine
end

section
/-! Divergence, and the own eviction out of membership (R45, R51, R52, R57, R74, R77, R78, R140). -/

namespace Sys2Proof.Machine

/-! ## A frame out of step -/

/-- The mismatch is recorded (R51). -/
def State.outOfStep (s : State) (f : Frame) : State :=
  { s with replica := { s.replica with mismatch := some f.sender } }

/-- A second station out of step in a row (R52). -/
def State.secondOutOfStep (s : State) (f : Frame) : Bool :=
  match s.replica.mismatch with
  | some v => v != f.sender
  | none => false

theorem State.applyLive_outOfStep {s : State} {f : Frame} (hr : f.role = .member) (h : f.baseTsn ≠ s.replica.tsn) :
    s.applyLive false f = ((s.outOfStep f).applyRule true false f).1.followInc.takeReport
      { ((s.outOfStep f).applyRule true false f).2 with diverged := s.secondOutOfStep f } := by
  have hm : (f.role == .member) = true := by rw [hr]; rfl
  have hcompare : s.compareTsn f = (s.outOfStep f, s.secondOutOfStep f) := by
    rw [State.compareTsn, if_neg h]
    rfl
  rw [State.applyLive, State.applyFrame]
  simp only [Bool.not_false, Bool.and_self, hm, if_true, hcompare]
  rfl

theorem State.takeReport_diverged (s : State) : s.takeReport { Report.nothing with diverged := true } = s.divergence := rfl

/-- SYNCED and MEMBER, where a divergence or an own eviction ends the membership. -/
def StationState.inGroup (x : StationState) : Prop := x = .member ∨ x = .synced

theorem State.divergence_inGroup {s : State} (h : s.sc.station.inGroup) :
    s.divergence = (s.enterLeaving .rejoin .live).note (.station (.leaving .rejoin .live) .diverged) := by
  rw [State.divergence]
  rcases h with h | h <;> rw [h]

theorem State.ownEviction_inGroup {s : State} (h : s.sc.station.inGroup) :
    s.ownEviction = s.endMember.joinStart.note (.station .joinWait .evicted) := by
  rw [State.ownEviction]
  rcases h with h | h <;> rw [h]

/-- What a divergence in SYNCED or MEMBER leaves (R52, R74, R77), out of a state that has told `own`. -/
structure Diverges (n : NoteUnit) (own : List Note) (z t : State) : Prop where
  station : t.sc.station = .leaving .rejoin .live
  replica : t.replica = z.replica
  requests : t.requests = []
  notes : { t.nu with irq := n.irq } = n.arriveAll (own
    ++ z.requests.map (fun q => .done q.tag .cancelled q.r) ++ [.station (.leaving .rejoin .live) .diverged])
  control : t.sc.control = z.sc.control.filter (fun c => !c.kind.isMembership) ++ [{ kind := .leave, count := 0 }]
  kp : t.kp = { permit := .none, timer := none }
  verdicts : t.tu.verdicts = []
  timer : t.tu.presenceTimer = none
  holds : ∀ h ∈ t.tu.holds, h.running = false
  lines : ∀ x : Fin 8, t.gou.active[x] = false
  config : t.config = z.config

theorem Diverges.of_settles {n : NoteUnit} {own : List Note} {z t : State} (hn : z.nu = n.arriveAll own)
    (hq : z.lu.sending = false) (hg : z.sc.station.inGroup) (ht : SettlesTo z.divergence t) : Diverges n own z t := by
  obtain ⟨l, hl⟩ := z.enterLeaving_eq .rejoin .live
  rw [State.divergence_inGroup hg, hl] at ht
  have hverdicts : z.withdrawVerdicts.tu.verdicts = [] := by
    rw [z.withdrawVerdicts_off hq]
    rfl
  refine ⟨by rw [ht.sc]; rfl, ht.replica, ht.requests, ?_, by rw [ht.sc]; rfl, ht.kp, ht.tu_verdicts.trans hverdicts,
    ht.tu_presenceTimer, fun h hh => ?_, ht.lines_off nofun, ht.config⟩
  · refine ht.notes (n := n) ?_
    rw [NoteUnit.arriveAll_append, NoteUnit.arriveAll_append, ← hn]
    rfl
  · have hholds : t.tu.holds = (z.tu.holds.map (fun h => { h with running := false })).map t.withRenewal := ht.holds
    rw [hholds, List.map_map] at hh
    obtain ⟨h', -, rfl⟩ := List.mem_map.mp hh
    rfl

/-- What the own eviction in SYNCED or MEMBER leaves (R45, R57, R74, R78). -/
structure Evicts (z t : State) : Prop where
  sc : t.sc = { z.sc with
    station := .joinWait, attemptNo := 0, ownInc := 0, readyRequeue := 0, joinAccepted := false, catchUp := [],
    staged := none, joinTimer := none, stallTimer := none, shadow := none, control := [{ kind := .join, count := 0 }] }
  replica : t.replica = Replica.cleared
  tu : t.tu = TimerUnit.afterReset
  requests : t.requests = []
  notes : { t.nu with irq := z.nu.irq } = z.nu.arriveAll
    (z.requests.map (fun q => .done q.tag .cancelled q.r) ++ [.station .joinWait .evicted])
  kp : t.kp = { permit := .none, timer := none }
  lines : ∀ x : Fin 8, t.gou.active[x] = false
  config : t.config = z.config
  tm : t.tm = z.tm

theorem Evicts.of_settles {z t : State} (hg : z.sc.station.inGroup) (ht : SettlesTo z.ownEviction t) : Evicts z t := by
  obtain ⟨l, hl⟩ := z.endMember_eq
  obtain ⟨l', hl'⟩ := z.endMember.joinStart_eq
  rw [State.ownEviction_inGroup hg, hl', hl] at ht
  refine ⟨ht.sc, ht.replica, ht.tu_cleared rfl, ht.requests, ht.notes (n := z.nu) ?_, ht.kp, ht.lines_off nofun, ht.config,
    ht.tm⟩
  rw [NoteUnit.arriveAll_append]
  rfl

/-- What a table frame tells of this station's own holds. -/
def OwnNote (n : Note) : Prop := (∃ r m, n = .granted r m) ∨ ∃ r, n = .lost r .expired

theorem State.tableLoss_own (s : State) (valid : Bool) (r : Resource) (b : Body) : ∀ n ∈ s.tableLoss valid r b, OwnNote n := by
  intro n hn
  unfold State.tableLoss at hn
  split at hn
  · split at hn
    · exact Or.inr ⟨r, List.mem_singleton.mp hn⟩
    · exact nomatch hn
  · exact nomatch hn

theorem State.grantNotes_own (s : State) (r : Resource) (gs : List Grant) : ∀ n ∈ s.grantNotes r gs, OwnNote n := by
  intro n hn
  obtain ⟨g, -, rfl⟩ := List.mem_map.mp hn
  exact Or.inl ⟨r, g.mode, rfl⟩

/-- A table frame of another station, by what it leaves in place. -/
theorem State.applyRule_table_told {s : State} {f : Frame} (hq : s.lu.sending = false) (live : Bool)
    (hr : (tableResource f.body).isSome = true) (hs : f.sender ≠ s.own) : ∃ entries tu l own,
      (∀ n ∈ own, OwnNote n) ∧ s.applyRule live false f = ({ s with
        replica := { s.replica with entries := entries, tsn := s.replica.tsn + 1 }
        tu := tu, lu := { s.lu with current := l }, nu := s.nu.arriveAll own }, Report.nothing) := by
  obtain ⟨r, hr⟩ := Option.isSome_iff_exists.mp hr
  obtain ⟨l, happ⟩ := State.applyRule_table hq live hr hs
  refine ⟨_, _, l, _, fun n hn => ?_, happ⟩
  rcases List.mem_append.mp hn with h | h
  · exact State.tableLoss_own _ _ _ _ n h
  · exact State.grantNotes_own _ _ _ n h

/-- Settles O49: a frame out of step, and the own EVICT. -/
theorem divergenceAndEvictionEndMembership : Obligations.DivergenceAndEvictionEndMembership := by
  intro s f hh hsender hgroup hfrole
  have hlive : (s.heard f).sc.station.live = true := by
    rcases hgroup with h | h <;> exact (congrArg StationState.live h).trans rfl
  have hexec := hh.exec_handOn hsender
  refine ⟨fun htable hstep => ?table, fun hbody hstep hmember hinc hlisted hrole => ?evict⟩
  case table =>
    obtain ⟨r, hr⟩ := Option.isSome_iff_exists.mp htable
    obtain ⟨entries, tu, l, own, hown, happ⟩ := State.applyRule_table_told (s := (s.heard f).outOfStep f) hh.not_sending
      true htable hsender
    rw [State.handOn_live_state hlive (isState_of_tableResource hr), State.applyLive_outOfStep (s := s.heard f) hfrole hstep, happ] at hexec
    refine ⟨fun hm => ?_, fun v hv hne => ?_⟩
    · have hno : (s.heard f).secondOutOfStep f = false := by
        rw [State.secondOutOfStep]
        split
        · next v hv => simpa using hm v hv
        · rfl
      rw [hno] at hexec
      obtain ⟨t, hexec, hs⟩ := exists_settled (e := State.followInc { (s.heard f).outOfStep f with
        replica := { ((s.heard f).outOfStep f).replica with entries := entries, tsn := s.replica.tsn + 1 }
        tu := tu, lu := { (s.heard f).lu with current := l }, nu := s.nu.arriveAll own }) hexec
      exact ⟨t, hexec, by rw [hs.sc]; rfl, by rw [hs.replica]; rfl, by rw [hs.replica]; rfl, hs.requests, hs.kp,
        hs.config⟩
    · have hyes : (s.heard f).secondOutOfStep f = true := by
        have hmis : (s.heard f).replica.mismatch = some v := hv
        rw [State.secondOutOfStep, hmis]
        exact bne_iff_ne.mpr hne
      rw [hyes, State.takeReport_diverged] at hexec
      obtain ⟨t, hexec, hs⟩ := exists_settled (e := State.divergence (State.followInc { (s.heard f).outOfStep f with
        replica := { ((s.heard f).outOfStep f).replica with entries := entries, tsn := s.replica.tsn + 1 }
        tu := tu, lu := { (s.heard f).lu with current := l }, nu := s.nu.arriveAll own })) hexec
      have hd := Diverges.of_settles (n := s.nu) (own := own) (by rfl) (by exact hh.not_sending) (by exact hgroup) hs
      exact ⟨t, own, hexec, hown, hd.station, by rw [hd.replica]; rfl, hd.requests, hd.notes, hd.control, hd.kp,
        hd.verdicts, hd.timer, hd.holds, hd.lines, hd.config⟩
  case evict =>
    have hhit : ((s.heard f).validActor f && ((s.heard f).rosterOf s.own).state != .absent
        && ((s.heard f).rosterOf s.own).inc == s.replica.roster[s.own].inc) = true := by
      have h1 : (s.heard f).validActor f = true :=
        Bool.and_eq_true_iff.mpr ⟨Bool.and_eq_true_iff.mpr ⟨beq_iff_eq.mpr hfrole, beq_iff_eq.mpr hmember⟩,
          beq_iff_eq.mpr hinc⟩
      rw [h1, Bool.true_and]
      exact Bool.and_eq_true_iff.mpr ⟨bne_iff_ne.mpr hlisted, beq_self_eq_true _⟩
    obtain ⟨replica, shadow, inc, tu, lu, happ⟩ := State.applyLive_ownEvicted (s := s.heard f) hh.not_sending hbody hhit
      hrole hstep
    rw [State.handOn_live_state hlive (by rw [hbody]; rfl), happ] at hexec
    obtain ⟨t, hexec, hs⟩ := exists_settled hexec
    have he := Evicts.of_settles (by exact hgroup) hs
    exact ⟨t, hexec, he.sc, he.replica, he.tu, he.requests, he.notes, he.kp, he.lines, he.config, he.tm⟩

end Sys2Proof.Machine
end

section
/-! The joiner's use of what it hears (R55, R60, R65, R66). -/

namespace Sys2Proof.Machine

/-- A MEMBER has been heard in the founding wait (R60). -/
def State.memberNow (s : State) (f : Frame) : Bool :=
  s.sc.memberHeard || (s.sc.station == .joinWait && f.role == .member)

/-- A joiner with a lower number has been (R60). -/
def State.lowerNow (s : State) (f : Frame) : Bool :=
  s.sc.lowerHeard || (s.sc.station == .joinWait && f.role == .joiner && decide (f.sender < s.own))

theorem State.foundingFacts_eq (s : State) (f : Frame) : s.foundingFacts f = { s with sc := { s.sc with
    memberHeard := s.memberNow f, lowerHeard := s.lowerNow f } } := by
  rw [State.foundingFacts, State.memberNow, State.lowerNow]
  by_cases hst : s.sc.station = .joinWait
  · have hb : (s.sc.station == .joinWait) = true := beq_iff_eq.mpr hst
    rw [if_pos hst, hb]
    rcases hr : f.role with _ | _
    · have h1 : (Role.member == Role.member) = true := rfl
      have h2 : (Role.member == Role.joiner) = false := rfl
      simp only [h1, h2, Bool.and_self, Bool.or_true, Bool.and_false, Bool.false_and, Bool.or_false]
      rfl
    · have h1 : (Role.joiner == Role.member) = false := rfl
      have h2 : (Role.joiner == Role.joiner) = true := rfl
      simp only [h1, h2, Bool.and_false, Bool.or_false, Bool.and_self, Bool.true_and]
      by_cases hl : f.sender < s.own
      · rw [if_pos hl, decide_eq_true hl, Bool.or_true]
        rfl
      · rw [if_neg hl, decide_eq_false hl, Bool.or_false]
  · have hb : (s.sc.station == .joinWait) = false := beq_eq_false_iff_ne.mpr hst
    rw [if_neg hst, hb]
    simp only [Bool.false_and, Bool.or_false]

theorem State.foundingFacts_snapshot {s : State} (h : s.sc.station = .snapshot) (f : Frame) : s.foundingFacts f = s := by
  rw [State.foundingFacts, if_neg (by rw [h]; exact nofun)]

/-! ## By the frame -/

theorem State.joinerTakes_segment {s : State} {f : Frame} {attempt : Fin 4} {tsn : Word16} {p : Payload}
    (hb : f.body = .snapshot s.own attempt tsn p) (ha : attempt.val = s.sc.attemptNo) :
    s.joinerTakes f = (s.foundingFacts f).takeSegment f.sender tsn p := by
  rw [State.joinerTakes, State.foundingFacts_eq, hb]
  exact if_pos ⟨rfl, ha⟩

theorem State.joinerTakes_state {s : State} {f : Frame} (h : f.body.isState = true) :
    s.joinerTakes f = (s.foundingFacts f).recordCatchUp f := by
  rw [State.joinerTakes]
  rcases hb : f.body with _ | _ | _ | _ | _ | _ | _ | _ | _ | _ | _ | _ <;> rw [hb] at h
  case presence | joinRefuse | snapshot => exact nomatch h

/-- A frame that a joiner makes no further use of: a PRESENCE, or a segment or refusal for another station or attempt. -/
def State.joinerIgnores (s : State) (f : Frame) : Prop :=
  f.body = .presence
  ∨ ∃ target attempt, (target ≠ s.own ∨ attempt.val ≠ s.sc.attemptNo)
    ∧ (f.body = .joinRefuse target attempt ∨ ∃ tsn p, f.body = .snapshot target attempt tsn p)

theorem State.joinerTakes_ignored {s : State} {f : Frame} (h : s.joinerIgnores f) : s.joinerTakes f = s.foundingFacts f := by
  rw [State.joinerTakes, State.foundingFacts_eq]
  rcases h with hb | ⟨target, attempt, hother, hb⟩
  · rw [hb]
  · have hnot : ¬ (target = s.own ∧ attempt.val = s.sc.attemptNo) := fun h => hother.elim (· h.1) (· h.2)
    rcases hb with hb | ⟨tsn, p, hb⟩
    · rw [hb]
      exact if_neg hnot
    · rw [hb]
      exact if_neg hnot

/-! ## Segments -/

theorem State.takeSegment_first {s : State} {sender : Station} {tsn : Word16} {records : Vector RosterRec 32}
    (h : s.sc.station = .joinWait) (hj : records[s.own].state = .joining) :
    s.takeSegment sender tsn (.roster records) = { s with sc := { s.sc with
      station := .snapshot, ownInc := records[s.own].inc, joinTimer := none, stallTimer := some 0,
      staged := some { sender := sender, tsn := tsn, roster := records, entries := [], last := 0 } } } := by
  unfold State.takeSegment
  simp only [h]
  exact if_pos hj

/-- Segment `i + 1` in order: staged, and loaded if it is the last. -/
theorem State.takeSegment_next {s : State} {x : Staged} {sender : Station} {i : Fin 16} {four : Vector Entry 4}
    (h : s.sc.station = .snapshot) (hx : s.sc.staged = some x) (hi : i.val = x.last) (hs : sender = x.sender) :
    s.takeSegment sender x.tsn (.entries i four)
      = if i.val + 1 = 16 then State.loadAndReplay { s with sc := { s.sc with
          staged := some { x with entries := x.entries ++ four.toList, last := i.val + 1 }, stallTimer := some 0 } }
          { x with entries := x.entries ++ four.toList, last := i.val + 1 }
        else { s with sc := { s.sc with
          staged := some { x with entries := x.entries ++ four.toList, last := i.val + 1 }, stallTimer := some 0 } } := by
  unfold State.takeSegment
  simp only [h, hx]
  exact if_pos ⟨by rw [hi], hs, trivial⟩

/-- Settles O47: `State.joinerTakes` by the frame. -/
theorem joinerStagesAndRecords : Obligations.JoinerStagesAndRecords := by
  intro s f member lower hh hsender hmember hlower
  have hexec := hh.exec_handOn hsender
  have hm : (s.heard f).memberNow f = member := hmember.symm
  have hl : (s.heard f).lowerNow f = lower := hlower.symm
  refine ⟨fun hst => ?joiner, fun hst hj => ?deaf⟩
  case joiner =>
    rw [State.handOn_joiner (x := s.heard f) hst] at hexec
    refine ⟨fun attempt tsn records hwait ha hb hjoining => ?first,
      fun attempt i four x hsnap hx ha hi hi' hs hb => ?next, fun hstate hroom => ?record, fun hignored => ?ignored⟩
    case first =>
      rw [State.joinerTakes_segment (s := s.heard f) hb ha, State.foundingFacts_eq, hm, hl,
        State.takeSegment_first (by exact hwait) (by exact hjoining)] at hexec
      obtain ⟨t, hexec, hs⟩ := exists_settled hexec
      exact ⟨t, hexec, hs.sc, hs.replica, hs.requests, hs.nu_but_irq, hs.config⟩
    case next =>
      rw [State.joinerTakes_segment (s := s.heard f) hb ha, State.foundingFacts_snapshot (by exact hsnap),
        State.takeSegment_next (s := s.heard f) hsnap hx hi hs, if_neg (by omega)] at hexec
      obtain ⟨t, hexec, hs⟩ := exists_settled hexec
      exact ⟨t, hexec, hs.sc, hs.replica, hs.requests, hs.nu_but_irq, hs.config⟩
    case record =>
      have hrecord : State.recordCatchUp { s.heard f with sc := { s.sc with memberHeard := member, lowerHeard := lower } } f
          = { s.heard f with sc := { s.sc with
            memberHeard := member, lowerHeard := lower, catchUp := s.sc.catchUp ++ [f] } } := if_pos hroom
      rw [State.joinerTakes_state hstate, State.foundingFacts_eq, hm, hl] at hexec
      have hexec' := hexec.trans (congrArg (fun x => Host.Outcome.next (State.settle x)) hrecord)
      obtain ⟨t, hexec, hs⟩ := exists_settled hexec'
      exact ⟨t, hexec, hs.sc, hs.replica, hs.requests, hs.nu_but_irq, hs.config⟩
    case ignored =>
      rw [State.joinerTakes_ignored (s := s.heard f) hignored, State.foundingFacts_eq, hm, hl] at hexec
      obtain ⟨t, hexec, hs⟩ := exists_settled hexec
      exact ⟨t, hexec, hs.sc, hs.replica, hs.requests, hs.nu_but_irq, hs.config⟩
  case deaf =>
    have hnothing : (s.heard f).handOn false f = s.heard f := by
      have hst' : (s.heard f).sc.station = .joinWait := hst
      have hj' : (s.heard f).sc.joinAccepted = false := hj
      unfold State.handOn
      simp only [hst', hj', Bool.false_eq_true, if_false]
    rw [hnothing] at hexec
    obtain ⟨t, hexec, hs⟩ := exists_settled hexec
    exact ⟨t, hexec, hs.sc, hs.replica, hs.requests, hs.nu_but_irq, hs.config⟩

end Sys2Proof.Machine
end

section
/-! JOIN (R35 to R39). -/

namespace Sys2Proof.Machine

/-! ## The provider -/

theorem allStations_lt {v w : Station} {as bs : List Station} (h : allStations = as ++ v :: bs) (hw : w < v) : w ∈ as := by
  have hsorted : (as ++ v :: bs).Pairwise (· < ·) := h ▸ List.pairwise_lt_finRange 32
  have hmem : w ∈ as ++ v :: bs := h ▸ List.mem_finRange w
  rcases List.mem_append.mp hmem with hmem | hmem
  · exact hmem
  · rcases List.mem_cons.mp hmem with rfl | hmem
    · exact absurd hw (Fin.lt_irrefl _)
    · have hlater := (List.pairwise_cons.mp (List.pairwise_append.mp hsorted).2.1).1 w hmem
      exact absurd (Fin.lt_trans hw hlater) (Fin.lt_irrefl _)

/-- The lowest station with a property. -/
theorem allStations_find_some {p : Station → Bool} {v : Station} (h : allStations.find? p = some v) :
    p v = true ∧ ∀ w < v, p w = false := by
  obtain ⟨hp, as, bs, hsplit, has⟩ := List.find?_eq_some_iff_append.mp h
  exact ⟨hp, fun w hw => by simpa using has w (allStations_lt hsplit hw)⟩

theorem allStations_find_none {p : Station → Bool} (h : allStations.find? p = none) : ∀ w, p w = false :=
  fun w => by simpa using List.find?_eq_none.mp h w (List.mem_finRange w)

/-- The provider for joiner `j` in a roster (R38). -/
def providerIn (roster : Vector RosterEntry 32) (j : Station) : Option Station :=
  allStations.find? (fun x => roster[x].state == .member && roster[x].providingFor == none && x != j)

theorem State.freeProvider_eq (s : State) (j : Station) : s.freeProvider j = providerIn s.replica.roster j := rfl

/-- It does not depend on the joiner's own listing. -/
theorem providerIn_set (roster : Vector RosterEntry 32) (j : Station) (e : RosterEntry) :
    providerIn (roster.set j.val e) j = providerIn roster j := by
  unfold providerIn
  refine congrArg (fun p => allStations.find? p) (funext (fun x => ?_))
  by_cases hx : x = j
  · have hb : (x != j) = false := by simpa using hx
    rw [hb, Bool.and_false, Bool.and_false]
  · rw [roster_set, if_neg hx]

theorem providerIn_some {roster : Vector RosterEntry 32} {j x : Station} (h : providerIn roster j = some x) :
    x ≠ j ∧ roster[x].state = .member ∧ roster[x].providingFor = none
      ∧ ∀ y < x, y ≠ j → roster[y].state = .member → roster[y].providingFor ≠ none := by
  obtain ⟨hx, hlow⟩ := allStations_find_some h
  simp only [Bool.and_eq_true, beq_iff_eq, bne_iff_ne] at hx
  obtain ⟨⟨hstate, hfree⟩, hne⟩ := hx
  refine ⟨hne, hstate, hfree, fun y hy hyj hm hn => ?_⟩
  have hno := hlow y hy
  have hjb : (y != j) = true := bne_iff_ne.mpr hyj
  simp only [beq_iff_eq.mpr hm, beq_iff_eq.mpr hn, hjb, Bool.and_self, reduceCtorEq] at hno

theorem providerIn_none {roster : Vector RosterEntry 32} {j : Station} (h : providerIn roster j = none) :
    ∀ y ≠ j, roster[y].state = .member → roster[y].providingFor ≠ none := by
  intro y hyj hm hn
  have hno := allStations_find_none h y
  have hjb : (y != j) = true := bne_iff_ne.mpr hyj
  simp only [beq_iff_eq.mpr hm, beq_iff_eq.mpr hn, hjb, Bool.and_self, reduceCtorEq] at hno

/-! ## The listing -/

/-- The roster with `v` listed as JOINING, with its provider if it has one (R37, R38). -/
def rosterJoined (roster : Vector RosterEntry 32) (v : Station) : Vector RosterEntry 32 :=
  let r1 := roster.set v.val { state := .joining, inc := nextIncarnation roster[v].inc, provider := none, providingFor := none }
  match providerIn roster v with
  | some x =>
    let r2 := r1.set x.val { r1[x] with providingFor := some v }
    r2.set v.val { r2[v] with provider := some x }
  | none => r1

theorem rosterJoined_get (roster : Vector RosterEntry 32) (v y : Station) : (rosterJoined roster v)[y] =
    if y = v then { state := .joining, inc := nextIncarnation roster[v].inc, provider := providerIn roster v,
                    providingFor := none }
    else if providerIn roster v = some y then { roster[y] with providingFor := some v } else roster[y] := by
  unfold rosterJoined
  rcases hp : providerIn roster v with _ | x
  · dsimp only
    rw [roster_set]
    by_cases hy : y = v
    · rw [if_pos hy, if_pos hy]
    · rw [if_neg hy, if_neg hy, if_neg (by simp)]
  · have hxv := (providerIn_some hp).1
    dsimp only
    rw [roster_set]
    by_cases hy : y = v
    · rw [if_pos hy, if_pos hy, roster_set, if_neg (Ne.symm hxv), roster_set, if_pos rfl]
    · rw [if_neg hy, if_neg hy, roster_set]
      by_cases hyx : y = x
      · subst hyx
        rw [if_pos rfl, if_pos rfl, roster_set, if_neg hy]
      · rw [if_neg hyx, if_neg (by simpa using Ne.symm hyx), roster_set, if_neg hy]

/-- The state with `v` listed, its watch open from zero (R37, R38, R118). -/
def State.listed (s : State) (v : Station) : State :=
  { s with
    replica := { s.replica with roster := rosterJoined s.replica.roster v }
    tu := { s.tu with presence := s.tu.presence.filter (fun w => w.station != v)
      ++ [{ station := v, inc := nextIncarnation s.replica.roster[v].inc, elapsed := 0, queued := false }] } }

/-- The state from which a JOIN lists its sender: a station already listed is removed first (R36). -/
def State.joinFrom (s : State) (live : Bool) (v : Station) : State :=
  if s.replica.roster[v].state = .absent then s else s.removeAndTell live v .left

/-- The listing, out of the state that the removal leaves, with the duty it gives `own`. -/
def State.listingSteps (s1 : State) (live : Bool) (own v : Station) (attempt : Fin 4) : State × Option (Station × Fin 4) :=
  let inc := nextIncarnation (s1.rosterOf v).inc
  let s2 := s1.setRosterEntry v { state := .joining, inc := inc, provider := none, providingFor := none }
  let s3 := if v = s2.own then s2 else s2.openPresence v inc
  match s3.freeProvider v with
  | some x =>
    let s4 := s3.setRosterEntry x { s3.rosterOf x with providingFor := some v }
    let s5 := s4.setRosterEntry v { s4.rosterOf v with provider := some x }
    (s5, if live ∧ x = own then some (v, attempt) else none)
  | none => (s3, none)

theorem State.listingSteps_eq {s : State} (live : Bool) (own : Station) {v : Station} (attempt : Fin 4) (hv : v ≠ s.own) :
    s.listingSteps live own v attempt = (s.listed v,
      if live = true ∧ providerIn s.replica.roster v = some own then some (v, attempt) else none) := by
  have hown : ∀ e : RosterEntry, (s.setRosterEntry v e).own = s.own := fun _ => rfl
  have hprovider : ∀ (e : RosterEntry) (i : Byte),
      ((s.setRosterEntry v e).openPresence v i).freeProvider v = providerIn s.replica.roster v :=
    fun e _ => providerIn_set s.replica.roster v e
  unfold State.listingSteps
  simp only [hown, if_neg hv, hprovider]
  rcases hp : providerIn s.replica.roster v with _ | x
  · simp only [reduceCtorEq, and_false, if_false, State.listed, rosterJoined, hp]
    rfl
  · simp only [Option.some.injEq, State.listed, rosterJoined, hp]
    rfl

theorem State.joinRule_form {s : State} {v : Station} {digest : Word16} (live : Bool) (attempt : Fin 4)
    (hd : digest = s.digest) (hv : v ≠ (s.joinFrom live v).own) :
    s.joinRule live v digest attempt = ((s.joinFrom live v).listed v,
      if live = true ∧ (s.joinFrom live v).freeProvider v = some s.own then some (v, attempt) else none) := by
  have hsteps : s.joinRule live v digest attempt = (s.joinFrom live v).listingSteps live s.own v attempt := by
    rw [State.joinRule, if_pos hd]
    rfl
  rw [hsteps, State.listingSteps_eq live s.own attempt hv]
  rfl

/-! ## The JOIN of another station -/

/-- The duty that a JOIN gives this station, if it does (R39, R69). -/
def State.takeDuty (s : State) : Option (Station × Fin 4) → State
  | some (j, a) => s.takeShadow j a
  | none => s

theorem State.takeReport_provide (s : State) (p : Option (Station × Fin 4)) :
    s.takeReport { Report.nothing with provide := p } = s.takeDuty p := by
  cases p <;> rfl

/-- What a JOIN leaves out of `x`, the state in which its sender is not listed. -/
structure JoinLists (v : Station) (p : Option (Station × Fin 4)) (x t : State) : Prop where
  replica : t.replica = { x.replica with roster := rosterJoined x.replica.roster v, tsn := x.replica.tsn + 1 }
  presence : t.tu.presence = x.tu.presence.filter (fun w => w.station != v)
    ++ [{ station := v, inc := nextIncarnation x.replica.roster[v].inc, elapsed := 0, queued := false }]
  expiry : t.tu.expiry = x.tu.expiry
  verdicts : t.tu.verdicts = x.tu.verdicts
  nu : { t.nu with irq := x.nu.irq } = x.nu
  requests : t.requests = x.requests
  config : t.config = x.config
  kp : t.kp = x.kp
  undisturbed : p = none → t.sc.shadow = x.sc.shadow
  duty : ∀ j a, p = some (j, a) → ∃ y, t.sc.shadow = some y ∧ y.joiner = j ∧ y.attempt = a ∧ y.next = 0
    ∧ y.tsn = t.replica.tsn ∧ y.roster = t.replica.roster ∧ y.entries = t.replica.entries

theorem JoinLists.of_settles {v : Station} {p : Option (Station × Fin 4)} {x t : State}
    (ht : SettlesTo (((x.listed v).advanceTsn.followInc).takeDuty p) t) : JoinLists v p x t := by
  rcases p with _ | ⟨j, a⟩
  · exact ⟨ht.replica, ht.tu_presence, ht.tu_expiry, ht.tu_verdicts, ht.nu_but_irq, ht.requests, ht.config, ht.kp,
      fun _ => by rw [ht.sc]; rfl, nofun⟩
  · refine ⟨ht.replica, ht.tu_presence, ht.tu_expiry, ht.tu_verdicts, ht.nu_but_irq, ht.requests, ht.config, ht.kp,
      nofun, fun j' a' h => ?_⟩
    cases h
    exact ⟨_, by rw [ht.sc]; rfl, rfl, rfl, rfl, by rw [ht.replica]; rfl, by rw [ht.replica]; rfl,
      by rw [ht.replica]; rfl⟩

/-- A watch from zero is open on the station that has joined (R118). -/
theorem JoinLists.watch {v : Station} {p : Option (Station × Fin 4)} {x t : State} (h : JoinLists v p x t) :
    ∃ w ∈ t.tu.presence, w.station = v ∧ w.elapsed = 0 ∧ w.inc = t.replica.roster[v].inc := by
  refine ⟨{ station := v, inc := nextIncarnation x.replica.roster[v].inc, elapsed := 0, queued := false }, ?_, rfl, rfl, ?_⟩
  · rw [h.presence]
    exact List.mem_append_right _ (List.mem_singleton_self _)
  · rw [h.replica]
    exact (congrArg RosterEntry.inc ((rosterJoined_get x.replica.roster v v).trans (if_pos rfl))).symm

/-- The duty of station `own` after `v` has joined, if it is the provider (R39). -/
def joinDuty (roster : Vector RosterEntry 32) (own v : Station) (attempt : Fin 4) : Option (Station × Fin 4) :=
  if providerIn roster v = some own then some (v, attempt) else none

/-- A JOIN of another station with this one's digest (R35 to R39). -/
theorem State.applyLive_join {s : State} {f : Frame} {digest : Word16} {attempt : Fin 4} (hr : f.role = .joiner)
    (hb : f.body = .join digest attempt) (hd : digest = s.digest) (hv : f.sender ≠ (s.joinFrom true f.sender).own) :
    s.applyLive false f = ((((s.joinFrom true f.sender).listed f.sender).advanceTsn.followInc).takeDuty
      (joinDuty (s.joinFrom true f.sender).replica.roster s.own f.sender attempt)) := by
  have hsame : s.inStep f = s := by rw [State.inStep, hr]; rfl
  have happ : s.applyRule true false f = (((s.joinFrom true f.sender).listed f.sender).advanceTsn,
      { Report.nothing with
        provide := joinDuty (s.joinFrom true f.sender).replica.roster s.own f.sender attempt }) := by
    rw [State.applyRule]
    simp only [hb, State.joinRule_form true attempt hd hv, true_and, State.freeProvider_eq]
    rfl
  rw [State.applyLive_foreign (by rw [hr]; exact nofun), hsame, happ]
  exact State.takeReport_provide _ _

/-- A JOIN with another digest (R35). -/
theorem State.applyLive_joinRefused {s : State} {f : Frame} {digest : Word16} {attempt : Fin 4} (hr : f.role = .joiner)
    (hb : f.body = .join digest attempt) (hd : digest ≠ s.digest) :
    s.applyLive false f = (if s.lowestMember = some s.own then s.queueRefusal f.sender attempt
      else s).advanceTsn.followInc := by
  have hsame : s.inStep f = s := by rw [State.inStep, hr]; rfl
  have happ : s.applyRule true false f = ((if s.lowestMember = some s.own then s.queueRefusal f.sender attempt
      else s).advanceTsn, Report.nothing) := by
    rw [State.applyRule]
    simp only [hb, State.joinRule, if_neg hd, true_and]
    rfl
  exact State.applyLive_foreign_nothing (by rw [hr]; exact nofun) (by rw [hsame]; exact happ)

theorem State.queueRefusal_form (s : State) (v : Station) (a : Fin 4) : s.queueRefusal v a = { s with sc := { s.sc with
    control := if (s.sc.control.filter (fun c => !c.kind.isMembership)).length < 4
      then s.sc.control ++ [{ kind := .joinRefuse v a, count := 0 }] else s.sc.control } } := by
  rw [State.queueRefusal, Config.refusalLimit]
  split
  · rfl
  · rfl

theorem nextIncarnation_eq (i : Byte) : nextIncarnation i = if i = 255 then 1 else i + 1 := rfl

/-- Settles O45: `JoinLists` out of the state as it is, and out of what the removal leaves. -/
theorem acceptedJoinListsStation : Obligations.AcceptedJoinListsStation := by
  intro s f digest attempt hh hsender hst hrole hbody
  have hlive : (s.heard f).sc.station.live = true := (congrArg StationState.live hst).trans rfl
  have hexec := hh.exec_handOn hsender
  rw [State.handOn_live_state hlive (by rw [hbody]; rfl)] at hexec
  refine ⟨fun hd habsent => ?absent, fun hd => ?refused, fun hd hlisted hlaw => ?listed⟩
  case absent =>
    have hfrom : (s.heard f).joinFrom true f.sender = s.heard f := if_pos habsent
    have happ := State.applyLive_join (s := s.heard f) hrole hbody hd (by rw [hfrom]; exact hsender)
    rw [happ, hfrom] at hexec
    obtain ⟨t, hexec, hs⟩ := exists_settled hexec
    have hj := JoinLists.of_settles hs
    have hget : ∀ y : Station, t.replica.roster[y] = (rosterJoined s.replica.roster f.sender)[y] := fun y => by
      rw [hj.replica]
      rfl
    refine ⟨t, hexec, by rw [hj.replica]; rfl, by rw [hj.replica]; rfl, by rw [hj.replica]; rfl, ?own, fun x hx => ?provider,
      fun h => providerIn_none h, fun x hx hne => ?others, fun h => ?duty, fun h => ?noDuty, ?watch, hj.nu, hj.requests,
      hj.config, hj.kp⟩
    case own =>
      rw [hget, rosterJoined_get, if_pos rfl]
      rfl
    case provider =>
      obtain ⟨hne, hm, hfree, hlow⟩ := providerIn_some hx
      refine ⟨hm, hfree, ?_, hlow⟩
      rw [hget, rosterJoined_get, if_neg hne]
      exact if_pos hx
    case others =>
      rw [hget, rosterJoined_get, if_neg hx]
      exact if_neg hne
    case duty => exact hj.duty f.sender attempt (if_pos h)
    case noDuty => exact hj.undisturbed (if_neg h)
    case watch =>
      obtain ⟨w, hw, hv, he, -⟩ := hj.watch
      exact ⟨w, hw, hv, he⟩
  case refused =>
    rw [State.applyLive_joinRefused (s := s.heard f) hrole hbody hd, State.queueRefusal_form] at hexec
    by_cases hl : s.lowestMember = some s.own
    · rw [if_pos (by exact hl)] at hexec
      obtain ⟨t, hexec, hs⟩ := exists_settled hexec
      refine ⟨t, hexec, hs.replica, ?_, by rw [hs.sc]; rfl, hs.requests, hs.config, hs.kp⟩
      rw [hs.sc]
      simp only [hl, true_and]
      rfl
    · rw [if_neg (by exact hl)] at hexec
      obtain ⟨t, hexec, hs⟩ := exists_settled hexec
      refine ⟨t, hexec, hs.replica, ?_, by rw [hs.sc]; rfl, hs.requests, hs.config, hs.kp⟩
      rw [hs.sc, if_neg (fun h => hl h.1)]
      rfl
  case listed =>
    have hfrom : (s.heard f).joinFrom true f.sender = (s.heard f).removeAndTell true f.sender .left := if_neg hlisted
    have hremoved := State.removeAndTell_removed (s := s.heard f) hh.not_sending (v := f.sender) hlaw.1 true .left
    have happ := State.applyLive_join (s := s.heard f) hrole hbody hd
    rw [hfrom] at happ
    generalize (s.heard f).removeAndTell true f.sender .left = x at hremoved happ
    obtain ⟨entries, roster, tu, l, shadow, hx⟩ := hremoved.frame
    have hroster : ∀ y : Station, x.replica.roster[y] = rosterWithout s.replica.roster f.sender y := hremoved.roster hlaw.2
    rw [happ (by rw [hx]; exact hsender)] at hexec
    obtain ⟨t, hexec, hs⟩ := exists_settled hexec
    have hj := JoinLists.of_settles hs
    have hget : ∀ y : Station, t.replica.roster[y] = (rosterJoined x.replica.roster f.sender)[y] := fun y => by
      rw [hj.replica]
    have hinc : x.replica.roster[f.sender].inc = s.replica.roster[f.sender].inc := by
      rw [hroster, rosterWithout_inc]
    refine ⟨t, fun y => x.replica.roster[y], providerIn x.replica.roster f.sender, hexec, hroster, fun y hy => ?some,
      fun h => providerIn_none h, ?removes, ?tsn, ?mismatch, ?own, fun y hy => ?others, fun h => ?duty, fun h => ?noDuty,
      ?watch, ?notes, ?requests, ?config, ?kp⟩
    case some => exact providerIn_some hy
    case removes =>
      refine hremoved.removesStation hsender rfl ?_ hj.expiry (fun i hi => hj.verdicts ▸ hi)
      rw [hj.replica]
    case tsn | mismatch =>
      rw [hj.replica, hx]
      rfl
    case own =>
      rw [hget, rosterJoined_get, if_pos rfl, hinc]
      rfl
    case others =>
      rw [hget, rosterJoined_get, if_neg hy]
    case duty => exact hj.duty f.sender attempt (if_pos h)
    case noDuty =>
      rw [hj.undisturbed (if_neg h)]
      exact hremoved.shadow hlaw.2 hsender
    case watch => exact hj.watch
    case notes =>
      have hnu : x.nu = s.nu.arriveAll (s.removalGrants f.sender ++ (s.heard f).departureTold true f.sender .left) := by
        rw [hx]
        rfl
      have hirq : x.nu.irq = s.nu.irq := by rw [hnu, NoteUnit.arriveAll_irq]
      rw [← hirq, hj.nu, hnu, State.departureTold_other (s := s.heard f) hsender]
      rfl
    case requests =>
      rw [hj.requests, hx]
      rfl
    case config =>
      rw [hj.config, hx]
      rfl
    case kp =>
      rw [hj.kp, hx]
      rfl

end Sys2Proof.Machine
end

section
/-! Lawful entries under claims and renewals (R1, R2, R10), and the lease table through every accepted frame. -/

namespace Sys2Proof

/-! ## A claim -/

/-- A waiter that neither holds nor waits, put at the tail where there is room. -/
theorem Entry.Promotable.snoc {e : Entry} {ws : List Waiter} (h : e.Promotable ws) {v : Station} (m : LeaseMode)
    (hh : e.holds v = false) (hw : ∀ w ∈ ws, w.station ≠ v) (hlen : ws.length < 6) :
    e.Promotable (ws ++ [⟨v, m⟩]) where
  mode := h.mode
  ascending := h.ascending
  bound := by
    rw [List.length_append]
    exact hlen
  nodup := by
    rw [List.map_append]
    refine List.nodup_append.mpr ⟨h.nodup, List.pairwise_singleton _ v, fun a ha b hb hab => ?_⟩
    obtain ⟨w, hmem, rfl⟩ := List.mem_map.mp ha
    exact hw w hmem (hab.trans (List.mem_singleton.mp hb))
  apart := by
    intro y hy x hx
    rcases List.mem_append.mp hx with hx | hx
    · exact h.apart y hy x hx
    · rw [List.mem_singleton.mp hx]
      intro hv
      exact List.any_eq_false.mp hh y hy (beq_iff_eq.mpr hv.symm)

theorem Entry.Promotable.of_waiters {e e' : Entry} {ws : List Waiter} (h : e.Promotable ws) (hm : e'.mode = e.mode)
    (hh : e'.holders = e.holders) : e'.Promotable ws := by
  have hfits : e'.modeFits := by
    have hmode := h.mode
    unfold Entry.modeFits at hmode ⊢
    rwa [hm, hh]
  exact ⟨hfits, hh ▸ h.ascending, h.bound, h.nodup, hh ▸ h.apart⟩

/-- The newcomers that R12 grants. -/
theorem Entry.granted_newcomer {e : Entry} {v : Station} {m : LeaseMode} {w : Bool} (h : e.decideClaim v m w = .granted) :
    e.holds v = false ∧ e.waits v = false ∧ e.GrantsNow m := by
  rcases hh : e.holds v with _ | _
  · rcases hw : e.waits v with _ | _
    · refine ⟨rfl, rfl, ?_⟩
      refine Classical.byContradiction fun hg => ?_
      rw [Entry.decideClaim_of_not_grantsNow hh hw hg] at h
      split at h
      · exact nomatch h
      · split at h <;> exact nomatch h
    · rw [Entry.decideClaim_of_waits hh hw] at h
      exact nomatch h
  · rw [Entry.decideClaim_of_holds hh] at h
    exact nomatch h

/-- The newcomers that R12 lets wait. -/
theorem Entry.waiting_newcomer {e : Entry} {v : Station} {m : LeaseMode} {w : Bool} (h : e.decideClaim v m w = .waiting) :
    e.holds v = false ∧ e.waits v = false ∧ ¬ e.GrantsNow m ∧ e.waiters.length < 6 := by
  rcases hh : e.holds v with _ | _
  · rcases hw : e.waits v with _ | _
    · have hg : ¬ e.GrantsNow m := fun hg => by
        rw [Entry.decideClaim_of_grantsNow hh hw hg] at h
        exact nomatch h
      refine ⟨rfl, rfl, hg, ?_⟩
      rw [Entry.decideClaim_of_not_grantsNow hh hw hg] at h
      split at h
      · next hroom => exact hroom.2
      · split at h <;> exact nomatch h
    · rw [Entry.decideClaim_of_waits hh hw] at h
      exact nomatch h
  · rw [Entry.decideClaim_of_holds hh] at h
    exact nomatch h

/-- An entry with room for a newcomer has no waiters, and takes it (R2, R12). -/
theorem Entry.GrantsNow.admits {e : Entry} (h : e.consistent = true) {m : LeaseMode} (hg : e.GrantsNow m) :
    e.waiters = [] ∧ e.admits m = true := by
  obtain ⟨hp, hfree⟩ := e.consistent_iff.mp h
  rcases hg with hf | ⟨hs, rfl, hw, hlen⟩
  · exact ⟨hfree hf, Entry.admits_of_free hp.mode hf m⟩
  · refine ⟨hw, ?_⟩
    simp [Entry.admits, hs, hlen, Config.holderLimit]

/-- A newcomer that is not granted where nobody waits is one that the entry does not take (R10, R12). -/
theorem Entry.not_admits {e : Entry} (h : e.modeFits) {m : LeaseMode} (hw : e.waiters = []) (hg : ¬ e.GrantsNow m) :
    e.admits m = false := by
  obtain ⟨hfree, hshared⟩ := not_or.mp hg
  rcases m with _ | _
  · by_cases hx : e.mode = .exclusive
    · simp [Entry.admits, hx]
    · have hs : e.mode = .shared := by
        rcases hm : e.mode with _ | _ | _
        · exact absurd hm hfree
        · rfl
        · exact absurd hm hx
      have hfull : ¬ e.holders.length < 4 := fun hlt => hshared ⟨hs, rfl, hw, hlt⟩
      have hlimit : decide (e.holders.length < Config.holderLimit) = false := decide_eq_false hfull
      rw [Entry.admits, hlimit, Bool.and_false]
  · have hne : e.holders ≠ [] := fun hn => hfree (h.free_iff.mpr hn)
    simpa [Entry.admits] using hne

theorem Entry.admits_waiters (e : Entry) (ws : List Waiter) (m : LeaseMode) :
    ({ e with waiters := ws } : Entry).admits m = e.admits m := by
  cases m <;> rfl

theorem Entry.claim_lawful {e : Entry} (h : e.lawful) (v : Station) (m : LeaseMode) (w : Bool) : (e.claim v m w).lawful := by
  obtain ⟨hcon, hset⟩ := h
  obtain ⟨hp, hfree⟩ := e.consistent_iff.mp hcon
  by_cases hgranted : e.decideClaim v m w = .granted
  case neg =>
    by_cases hwaiting : e.decideClaim v m w = .waiting
    case neg =>
      rw [Entry.claim_of_refused hgranted hwaiting]
      exact ⟨hcon, hset⟩
    case pos =>
      obtain ⟨hh, hw, hg, hlen⟩ := Entry.waiting_newcomer hwaiting
      have hnot : ∀ x ∈ e.waiters, x.station ≠ v := fun x hx hv => List.any_eq_false.mp hw x hx (beq_iff_eq.mpr hv)
      rw [Entry.claim_of_waiting hwaiting]
      have hsettled : ({ e with waiters := e.waiters ++ [⟨v, m⟩] } : Entry).settled = true := by
        rcases hws : e.waiters with _ | ⟨x, xs⟩
        · have hno := Entry.not_admits hp.mode hws hg
          simp only [Entry.settled, List.nil_append, Entry.admits_waiters, hno, Bool.not_false]
        · rw [Entry.settled, hws] at hset
          simp only [Entry.settled, List.cons_append, Entry.admits_waiters]
          exact hset
      have hsnoc : ({ e with waiters := e.waiters ++ [⟨v, m⟩] } : Entry).Promotable (e.waiters ++ [⟨v, m⟩]) :=
        (hp.snoc m hh hnot hlen).of_waiters rfl rfl
      exact ⟨hsnoc.consistent hsettled, hsettled⟩
  case pos =>
    obtain ⟨hh, hw, hg⟩ := Entry.granted_newcomer hgranted
    obtain ⟨hnone, hadmits⟩ := hg.admits hcon
    have hsnoc : e.Promotable [⟨v, m⟩] := by
      have htail := hp.snoc m hh (fun x hx hv => List.any_eq_false.mp hw x hx (beq_iff_eq.mpr hv))
        (by rw [hnone]; exact Nat.succ_pos 5)
      rwa [hnone] at htail
    have hwaiters : (e.grant v m).waiters = [] := hnone
    have hsettled : (e.grant v m).settled = true := by rw [Entry.settled, hwaiters]
    have hgrant : (e.grant v m).Promotable [] := (hsnoc.grant hadmits).of_waiters rfl rfl
    rw [Entry.claim_of_granted hgranted]
    exact ⟨Entry.Promotable.consistent (hwaiters ▸ hgrant) hsettled, hsettled⟩

/-! ## A renewal -/

theorem Entry.renew_lawful {e : Entry} (h : e.lawful) (v : Station) : (e.renew v).lawful := by
  obtain ⟨hcon, hset⟩ := h
  obtain ⟨hp, hfree⟩ := e.consistent_iff.mp hcon
  have hlen : (e.renew v).holders.length = e.holders.length := List.length_map _
  have hnil : (e.renew v).holders = [] ↔ e.holders = [] := List.map_eq_nil_iff
  have hstation : ∀ h : Slot, (if h.station = v then { h with gen := e.gen + 1 } else h).station = h.station := fun h => by
    split <;> rfl
  have hfits : (e.renew v).modeFits := by
    have hmode := hp.mode
    have hsame : (e.renew v).mode = e.mode := rfl
    unfold Entry.modeFits at hmode ⊢
    rw [hlen, hnil, hsame]
    exact hmode
  have hpromotable : (e.renew v).Promotable e.waiters := by
    refine ⟨hfits, ?_, hp.bound, hp.nodup, fun y hy w hw => ?_⟩
    · exact List.pairwise_map.mpr (hp.ascending.imp (fun hab => by rw [hstation, hstation]; exact hab))
    · obtain ⟨y', hy', rfl⟩ := List.mem_map.mp hy
      rw [hstation]
      exact hp.apart y' hy' w hw
  have hsettled : (e.renew v).settled = true := by
    have hadmits : ∀ m, (e.renew v).admits m = e.admits m := fun m => by
      cases m
      · simp only [Entry.admits, hlen]
        rfl
      · have hempty : (e.renew v).holders.isEmpty = e.holders.isEmpty := List.isEmpty_map
        exact hempty
    have hwaiters : (e.renew v).waiters = e.waiters := rfl
    unfold Entry.settled at hset ⊢
    simp only [hwaiters, hadmits]
    exact hset
  exact ⟨hpromotable.consistent hsettled, hsettled⟩

end Sys2Proof
end

section
/-! What one application does to the lease table, entry by entry (R6, R12 to R25, R46). -/

namespace Sys2Proof.Machine

/-! ## A property of every entry -/

/-- Every entry of the lease table has `P`. -/
def State.eachEntry (s : State) (P : Entry → Prop) : Prop := ∀ r : Resource, P s.replica.entries[r]

/-- `P` is kept by what a frame from `v` can do to one entry. -/
structure EntryRule (v : Station) (P : Entry → Prop) : Prop where
  claim : ∀ (e : Entry) (m : LeaseMode) (w : Bool), P e → P (e.claim v m w)
  renew : ∀ e : Entry, P e → P (e.renew v)
  dropHolder : ∀ (e : Entry) (u : Station), P e → P (e.dropHolder u).promote.1
  dropWaiter : ∀ (e : Entry) (u : Station), P e → P (e.dropWaiter u).promote.1

variable {P : Entry → Prop}

theorem State.eachEntry.same {s x : State} (h : s.eachEntry P) (hx : x.replica.entries = s.replica.entries) : x.eachEntry P :=
  fun r => by
    rw [hx]
    exact h r

theorem State.eachEntry.set {s x : State} (h : s.eachEntry P) {r : Resource} {e : Entry} (he : P e)
    (hx : x.replica.entries = s.replica.entries.set r.val e) : x.eachEntry P := fun y => by
  rw [hx, entries_set]
  split
  · exact he
  · exact h y

theorem State.eachEntry.pass {s x : State} {v : Station} {gone : Prop} {rs : List Resource}
    {act : Resource → Entry × List Grant} (h : s.eachEntry P) (hx : PassDone v gone s x rs act) (ha : ∀ r, P (act r).1) :
    x.eachEntry P := fun r => by
  rw [hx.entries r]
  split
  · exact ha r
  · exact h r

/-! ## The table frames -/

theorem State.claimRule_each {s : State} {v : Station} (hP : EntryRule v P) (h : s.eachEntry P) (r : Resource) (m : LeaseMode)
    (w : Bool) : (s.claimRule v r m w).1.eachEntry P := by
  rw [State.claimRule_eq]
  exact h.set (hP.claim _ m w (h r)) rfl

theorem State.releaseRule_each {s : State} (hq : s.lu.sending = false) {u : Station} (hP : EntryRule u P) (h : s.eachEntry P)
    (own : Bool) (v : Station) (r : Resource) (tag : Tag) : (s.releaseRule own v r tag).1.eachEntry P := by
  rcases hh : s.replica.entries[r].holds v with _ | _
  · rw [State.releaseRule_misses own tag hh]
    exact h
  · obtain ⟨l, hl⟩ := State.releaseRule_holds hq own tag hh
    rw [hl]
    exact h.set (hP.dropHolder _ v (h r)) rfl

theorem State.withdrawRule_each {s : State} {u : Station} (hP : EntryRule u P) (h : s.eachEntry P)
    (own : Bool) (v : Station) (r : Resource) (tag : Tag) : (s.withdrawRule own v r tag).1.eachEntry P := by
  rcases hw : s.replica.entries[r].waits v with _ | _
  · rw [State.withdrawRule_misses own tag hw]
    exact h
  · rw [State.withdrawRule_waits own tag hw]
    exact h.set (hP.dropWaiter _ v (h r)) rfl

theorem State.expireRule_each {s : State} (hq : s.lu.sending = false) {u : Station} (hP : EntryRule u P) (h : s.eachEntry P)
    (r : Resource) (v : Station) (g : Word16) : (s.expireRule r v g).eachEntry P := by
  rcases hh : s.replica.entries[r].holdsAt v g with _ | _
  · rw [State.expireRule_misses hh]
    exact h
  · obtain ⟨l, hl⟩ := State.expireRule_hits hq hh
    rw [hl]
    exact h.set (hP.dropHolder _ v (h r)) rfl

/-- A late RENEW touches no entry (R19). -/
theorem State.renewRule_late_replica {s : State} (own : Bool) {v : Station} {r : Resource}
    (h : s.replica.entries[r].holds v = false) : (s.renewRule own v r).replica = s.replica := by
  rcases own with _ | _
  · rw [State.renewRule_misses h]
  · have hh : (s.entry r).holds v = false := h
    unfold State.renewRule
    simp only [hh, Bool.false_eq_true, if_false, if_true]
    split
    · rw [State.closeHold_eq]
      split
      · exact (State.withdrawAttempt_form s _).elim (fun l hl => by rw [hl]; rfl)
      · exact (State.withdrawAttempt_form s _).elim (fun l hl => by rw [hl]; rfl)
    · rfl

theorem State.renewRule_each {s : State} (hq : s.lu.sending = false) {v : Station} (hP : EntryRule v P) (h : s.eachEntry P)
    (own : Bool) (r : Resource) : (s.renewRule own v r).eachEntry P := by
  rcases hh : s.replica.entries[r].holds v with _ | _
  · exact h.same (by rw [State.renewRule_late_replica own hh])
  · rw [State.renewRule_holds hq own hh]
    exact h.set (hP.renew _ (h r)) rfl

/-! ## The roster frames -/

theorem State.removeFromTable_each {s : State} (hq : s.lu.sending = false) {u : Station} (hP : EntryRule u P)
    (h : s.eachEntry P) (v : Station) : (s.removeFromTable v).eachEntry P := by
  have hfirst := State.holderPass_done hq v
  obtain ⟨entries, tu, l, hx⟩ := hfirst.frame
  have hholders := h.pass hfirst (fun r => hP.dropHolder _ v (h r))
  rw [State.removeFromTable_passes]
  exact hholders.pass (State.waiterPass_done (s := s.holderPass v) (by rw [hx]; exact hq) v)
    (fun r => hP.dropWaiter _ v (hholders r))

/-- What a removal does after the two passes touches no entry. -/
theorem State.delisted_entries (x : State) (v : Station) :
    (((x.clearPairings v).delist v).dropIfOwn v).replica.entries = x.replica.entries := by
  obtain ⟨roster, shadow, hy⟩ := (State.clearPairings_unpaired x v).frame
  have hdelist : ∀ y : State, (y.delist v).replica.entries = y.replica.entries := fun _ => rfl
  have hdrop : ∀ y : State, (y.dropIfOwn v).replica = y.replica := fun y => by
    rw [State.dropIfOwn]
    split
    · obtain ⟨l, hl⟩ := y.dropOwnHolds_form
      rw [hl]
    · rfl
  rw [hdrop, hdelist, hy]

theorem State.removeAndTell_each {s : State} (hq : s.lu.sending = false) {u : Station} (hP : EntryRule u P)
    (h : s.eachEntry P) (live : Bool) (v : Station) (c : MembershipCause) : (s.removeAndTell live v c).eachEntry P := by
  have hremoved : (s.removeStation v).eachEntry P := by
    rw [State.removeStation_steps]
    exact (State.removeFromTable_each hq hP h v).same (State.delisted_entries _ v)
  rw [State.removeAndTell]
  generalize s.removeStation v = x at hremoved ⊢
  split
  · exact hremoved.same rfl
  · exact hremoved

theorem State.listingSteps_entries (s : State) (live : Bool) (own v : Station) (attempt : Fin 4) :
    (s.listingSteps live own v attempt).1.replica.entries = s.replica.entries := by
  unfold State.listingSteps
  dsimp only
  split
  · split <;> rfl
  · split <;> rfl

theorem State.joinRule_each {s : State} (hq : s.lu.sending = false) {u : Station} (hP : EntryRule u P) (h : s.eachEntry P)
    (live : Bool) (v : Station) (digest : Word16) (attempt : Fin 4) : (s.joinRule live v digest attempt).1.eachEntry P := by
  by_cases hd : digest = s.digest
  · have hsteps : s.joinRule live v digest attempt = (s.joinFrom live v).listingSteps live s.own v attempt := by
      rw [State.joinRule, if_pos hd]
      rfl
    have hfrom : (s.joinFrom live v).eachEntry P := by
      rw [State.joinFrom]
      split
      · exact h
      · exact State.removeAndTell_each hq hP h live v .left
    rw [hsteps]
    exact hfrom.same (State.listingSteps_entries ..)
  · rw [State.joinRule, if_neg hd]
    refine h.same ?_
    dsimp only
    rw [State.queueRefusal]
    split
    · split <;> rfl
    · rfl

/-! ## One application -/

theorem State.deliver_replica (s : State) (tag : Tag) (r : Resource) (isClaim : Bool) (o : ReqOutcome) :
    (s.deliver tag r isClaim o).replica = s.replica := by
  rcases tag with t | _
  · rw [State.deliver, State.completeRequest_eq]
  · rw [State.deliver, State.surrenderRemove_form]
    split <;> rfl

/-- Where no attempt of this station is on the line, one application takes each entry by the rules of one entry. -/
theorem State.applyRule_each {s : State} {f : Frame} (hq : s.lu.sending = false) (hP : EntryRule f.sender P)
    (h : s.eachEntry P) (live own : Bool) : (s.applyRule live own f).1.eachEntry P := by
  rw [State.applyRule]
  rcases f.body with ⟨r, m, w, t⟩ | ⟨r, t⟩ | r | ⟨r, t⟩ | ⟨r, v, g⟩ | ⟨d, a⟩ | _ | _ | ⟨v, i⟩ | _ | ⟨v, a⟩ | ⟨v, a, t, p⟩
  all_goals dsimp only
  case claim =>
    have hx : (if s.validActor f then s.claimRule f.sender r m w else (s, .stray)).1.eachEntry P := by
      split
      · exact State.claimRule_each hP h r m w
      · exact h
    split
    · exact hx.same (by rw [State.deliver_replica]; rfl)
    · exact hx.same rfl
  case release =>
    have hx : (if s.validActor f then s.releaseRule own f.sender r t else (s, .stray)).1.eachEntry P := by
      split
      · exact State.releaseRule_each hq hP h own f.sender r t
      · exact h
    split
    · exact hx.same (by rw [State.deliver_replica]; rfl)
    · exact hx.same rfl
  case withdraw =>
    have hx : (if s.validActor f then s.withdrawRule own f.sender r t else (s, .stray)).1.eachEntry P := by
      split
      · exact State.withdrawRule_each hP h own f.sender r t
      · exact h
    split
    · exact hx.same (by rw [State.deliver_replica]; rfl)
    · exact hx.same rfl
  case renew =>
    have hx : (if s.validActor f then s.renewRule own f.sender r else s).eachEntry P := by
      split
      · exact State.renewRule_each hq hP h own r
      · exact h
    split
    · exact hx.same rfl
    · exact hx.same rfl
  case expire =>
    have hx : (if s.validActor f then s.expireRule r v g else s).eachEntry P := by
      split
      · exact State.expireRule_each hq hP h r v g
      · exact h
    split
    · exact hx.same (by rw [State.ownVerdictEnds_eq]; rfl)
    · exact hx.same rfl
  case join => exact (State.joinRule_each hq hP h live f.sender d a).same rfl
  case ready =>
    refine State.eachEntry.same h ?_
    split
    · rw [State.readyRule_form]
      rfl
    · rfl
  case leave =>
    have hx : (if s.listedAs f (fun st => st != .absent) then s.removeAndTell live f.sender .left else s).eachEntry P := by
      split
      · exact State.removeAndTell_each hq hP h live f.sender .left
      · exact h
    exact hx.same rfl
  case evict =>
    have hx : (if (s.validActor f && (s.rosterOf v).state != .absent && (s.rosterOf v).inc == i) = true
        then s.removeAndTell live v .evicted else s).eachEntry P := by
      split
      · exact State.removeAndTell_each hq hP h live v .evicted
      · exact h
    split
    · exact hx.same (by rw [State.ownVerdictEnds_eq]; rfl)
    · exact hx.same rfl
  all_goals exact h

end Sys2Proof.Machine
end

section
/-! The lease table through every accepted frame (R1, R2, R6, R10, R75). -/

namespace Sys2Proof.Machine

/-! ## What the Station Controller does to the table -/

/-- The lease table stands as it was, or has been cleared. -/
def State.StandsOrCleared (s x : State) : Prop :=
  x.replica.entries = s.replica.entries ∨ x.replica.entries = Replica.cleared.entries

theorem State.StandsOrCleared.refl (s : State) : s.StandsOrCleared s := .inl rfl

theorem State.StandsOrCleared.trans {s x y : State} (h : s.StandsOrCleared x) (g : x.StandsOrCleared y) :
    s.StandsOrCleared y := by
  rcases g with g | g
  · rcases h with h | h
    · exact .inl (g.trans h)
    · exact .inr (g.trans h)
  · exact .inr g

theorem State.StandsOrCleared.tableOk {s x : State} (h : s.StandsOrCleared x) (hs : s.replica.tableOk) :
    x.replica.tableOk := by
  intro r
  rcases h with h | h
  · rw [h]
    exact hs r
  · rw [h]
    exact Replica.cleared_tableOk r

theorem State.enterFaulted_stands (s : State) (c : FaultCause) : s.StandsOrCleared (s.enterFaulted c) := by
  rcases hon : s.sc.station.onLine with _ | _
  · rw [State.enterFaulted_offLine s c hon]
    exact .refl s
  · obtain ⟨lu, h⟩ := s.enterFaulted_eq c hon
    rw [h]
    exact .inr rfl

theorem State.joinStart_stands (s : State) : s.StandsOrCleared s.joinStart := by
  obtain ⟨l, h⟩ := s.joinStart_eq
  rw [h]
  exact .inr rfl

theorem State.failedAttempt_stands (s : State) : s.StandsOrCleared (s.failedAttempt true) := by
  by_cases h : s.sc.attemptNo + 1 < 4
  · obtain ⟨l, l', he⟩ := s.failedAttempt_again true h
    rw [he]
    exact .inr rfl
  · obtain ⟨l, he⟩ := s.failedAttempt_last true (Nat.not_lt.mp h)
    have hover : s.StandsOrCleared (s.attemptOver true l) := .inr rfl
    rw [he]
    exact hover.trans (State.enterFaulted_stands _ _)

theorem State.leavingEnd_stands (s : State) : s.StandsOrCleared s.leavingEnd := by
  unfold State.leavingEnd
  split
  · obtain ⟨l, h⟩ := s.clearReplica_form
    rw [h]
    exact .inr rfl
  · exact s.joinStart_stands
  all_goals exact .refl s

theorem State.divergence_stands (s : State) : s.StandsOrCleared s.divergence := by
  obtain ⟨l, h⟩ := s.enterLeaving_eq .rejoin .live
  have hleaving : s.StandsOrCleared ((s.enterLeaving .rejoin .live).note (.station (.leaving .rejoin .live) .diverged)) := by
    rw [h]
    exact .inl rfl
  unfold State.divergence
  split
  · exact hleaving
  · exact hleaving
  all_goals exact .refl s

theorem State.ownEviction_stands (s : State) : s.StandsOrCleared s.ownEviction := by
  have hended : s.StandsOrCleared (s.endMember.joinStart.note (.station .joinWait .evicted)) := by
    obtain ⟨l, h⟩ := s.endMember.joinStart_eq
    rw [h]
    exact .inr rfl
  unfold State.ownEviction
  split
  · exact hended
  · exact hended
  · exact s.leavingEnd_stands
  all_goals exact .refl s

theorem State.takeReadyReport_stands (s : State) (applied : Bool) : s.StandsOrCleared (s.takeReadyReport applied) := by
  unfold State.takeReadyReport
  split
  · split
    · rw [State.enterMember_eq]
      exact .inl rfl
    · exact s.failedAttempt_stands
  · exact .refl s

theorem State.takeRemovalReports_stands (s : State) (rep : Report) : s.StandsOrCleared (s.takeRemovalReports rep) := by
  have hcounted : s.StandsOrCleared (s.setFreeIndex (s.freeIndex + 1)) := .inl rfl
  unfold State.takeRemovalReports
  split
  · exact .refl s
  · exact s.divergence_stands
  · exact s.ownEviction_stands
  · dsimp only
    split
    · exact (hcounted.trans (State.ownEviction_stands _)).trans (State.divergence_stands _)
    · exact (hcounted.trans (State.divergence_stands _)).trans (State.ownEviction_stands _)

theorem State.takeReport_stands (s : State) (rep : Report) : s.StandsOrCleared (s.takeReport rep) := by
  have hprovide : ∀ x : State, x.StandsOrCleared (match rep.provide with | some (j, a) => x.takeShadow j a | none => x) :=
    fun x => by
      split
      · exact .inl rfl
      · exact .refl x
  have hready : ∀ x : State, x.StandsOrCleared (match rep.ready with | some ok => x.takeReadyReport ok | none => x) :=
    fun x => by
      split
      · exact x.takeReadyReport_stands _
      · exact .refl x
  have hleave : ∀ x : State, x.StandsOrCleared (match rep.leave with | some _ => x.leavingEnd | none => x) := fun x => by
    split
    · exact x.leavingEnd_stands
    · exact .refl x
  exact (((hprovide s).trans (hready _)).trans (hleave _)).trans (State.takeRemovalReports_stands _ rep)

/-! ## An accepted frame -/

/-- R1, R2 and R10 hold entry by entry through what one frame does to an entry. -/
theorem EntryRule.lawful (v : Station) : EntryRule v Entry.lawful where
  claim := fun _ m w h => Entry.claim_lawful h v m w
  renew := fun _ h => Entry.renew_lawful h v
  dropHolder := fun _ u h => Entry.dropHolder_promote_lawful h.1 u
  dropWaiter := fun _ u h => Entry.dropWaiter_promote_lawful h.1 u

theorem State.applyLive_tableOk {s : State} (hq : s.lu.sending = false) (h : s.replica.tableOk) (own : Bool) (f : Frame) :
    (s.applyLive own f).replica.tableOk := by
  have hcompared : ∃ mismatch, (if true && !own && f.role == .member then s.compareTsn f else (s, false)).1
      = { s with replica := { s.replica with mismatch := mismatch } } := by
    split
    · rw [State.compareTsn]
      split
      · exact ⟨_, rfl⟩
      · exact ⟨_, rfl⟩
    · exact ⟨s.replica.mismatch, rfl⟩
  obtain ⟨mismatch, hc⟩ := hcompared
  have happlied : ((if true && !own && f.role == .member then s.compareTsn f else (s, false)).1.applyRule true own f).1.eachEntry
      Entry.lawful := by
    rw [hc]
    exact State.applyRule_each (s := { s with replica := { s.replica with mismatch := mismatch } }) hq (EntryRule.lawful f.sender) h true own
  exact (State.takeReport_stands _ _).tableOk happlied

theorem State.handOn_tableOk {s : State} (hq : s.lu.sending = false) (hlive : s.sc.station.live = true)
    (h : s.replica.tableOk) (own : Bool) (f : Frame) : (s.handOn own f).replica.tableOk := by
  rw [State.handOn_live hlive]
  split
  · exact State.applyLive_tableOk hq h own f
  · exact h

/-- The own frame of a station that sends none, or that fails in its reception, is no event (log 5). -/
theorem exec_ownAccepted_of_not_sent {s : State} (h : ∀ a, ¬ s.sent a) : exec (.frameAccepted .own) s = .next s := by
  rw [exec_frameAccepted]
  unfold execFrameAccepted
  rcases hcur : s.lu.current with _ | a
  · rfl
  · have hnot : ¬((s.lu.tx = .send ∨ s.lu.tx = .veto) ∧ ¬ s.lu.rxFailed = true) := fun hs =>
      h a ⟨hcur, hs.1, by simpa using hs.2⟩
    simp only [if_neg hnot]

/-- A frame of another station is no event where it is not heard (log 5). -/
theorem exec_foreignAccepted_of_not_hears {s : State} {f : Frame} (h : ¬ s.hears f) :
    exec (.frameAccepted (.foreign f)) s = .next s := by
  rw [exec_frameAccepted]
  unfold execFrameAccepted
  have hnot : ¬(s.listening = true ∧ ¬ s.lu.sending = true ∧ ¬ s.lu.rxFailed = true ∧ f.wf = true) := fun hs => by
    obtain ⟨hlisten, hsending, hfailed, hwf⟩ := hs
    obtain ⟨h1, h2, h3⟩ := (LineUnit.sending_false_iff _).mp (Bool.eq_false_iff.mpr hsending)
    exact h ⟨hlisten, h1, h2, h3, Bool.eq_false_iff.mpr hfailed, hwf⟩
  simp only [if_neg hnot]

/-- Settles O57: an own frame, and one of another station, each handed on to the live replica. -/
theorem acceptedFrameKeepsTableLawful : Obligations.AcceptedFrameKeepsTableLawful := by
  intro s t f hlive h hexec
  have hsettled : ∀ x : State, Host.Outcome.next x.settle = (Host.Outcome.next t : Answer) → x.replica.tableOk →
      t.replica.tableOk := fun x hx hok => by
    obtain rfl := Host.Outcome.next.inj hx
    rw [(State.settle_settlesTo x).replica]
    exact hok
  rcases f with _ | f
  case own =>
    by_cases hsent : ∃ a, s.sent a
    · obtain ⟨a, ha⟩ := hsent
      obtain ⟨control, shadow, tu, hleft⟩ := s.ownLeft_form a
      refine hsettled _ (ha.exec.symm.trans hexec) ?_
      rw [hleft]
      exact State.handOn_tableOk rfl (by exact hlive) (by exact h) true a.frame
    · rw [exec_ownAccepted_of_not_sent (not_exists.mp hsent)] at hexec
      obtain rfl := Host.Outcome.next.inj hexec
      exact h
  case foreign =>
    by_cases hh : s.hears f
    · by_cases ho : f.sender = s.own
      · refine hsettled _ (hh.exec.symm.trans hexec) ?_
        rw [State.acceptForeign]
        dsimp only
        rw [if_pos (by exact ho)]
        exact (State.enterFaulted_stands _ _).tableOk h
      · refine hsettled _ ((hh.exec_handOn ho).symm.trans hexec) ?_
        exact State.handOn_tableOk (s := s.heard f) hh.not_sending (by exact hlive) (by exact h) false f
    · rw [exec_foreignAccepted_of_not_hears hh] at hexec
      obtain rfl := Host.Outcome.next.inj hexec
      exact h

end Sys2Proof.Machine
end

section
/-! The load of a staged snapshot (R67, R125, R202). -/

namespace Sys2Proof.Machine

/-! ## The tables of a snapshot -/

theorem vectorFrom_getElem {α : Type} {n : Nat} (d : α) {xs : List α} {i : Nat} (hi : i < n) (h : i < xs.length) :
    (vectorFrom n d xs)[i] = xs[i] := by
  have hget : (vectorFrom n d xs)[i] = ((xs ++ List.replicate n d).take n)[i]'(by simp; omega) := rfl
  rw [hget, List.getElem_take, List.getElem_append_left h]

/-- The provider of `v` is whoever provides for it (R202). -/
theorem loadedRoster_get (records : Vector RosterRec 32) (v : Station) : (loadedRoster records)[v] =
    { state := records[v].state, inc := records[v].inc, providingFor := records[v].providingFor
      provider := allStations.find? (fun x => records[x].providingFor == some v) } := by
  have hv : v.val < (allStations.map (fun v : Station => ({
      state := records[v].state, inc := records[v].inc, providingFor := records[v].providingFor
      provider := allStations.find? (fun x => records[x].providingFor == some v) } : RosterEntry))).length := by
    rw [List.length_map]
    have hlen : allStations.length = 32 := List.length_finRange
    omega
  refine (vectorFrom_getElem RosterEntry.cleared v.isLt hv).trans ?_
  rw [List.getElem_map]
  have hget : ∀ h, allStations[v.val]'h = v := fun h => Fin.ext (by simp [allStations])
  rw [hget]

theorem loadedEntry {xs : List Entry} (h : xs.length = 64) (r : Resource) :
    xs[r.val]? = some (vectorFrom 64 Entry.cleared xs)[r] := by
  have hr : r.val < xs.length := lt_of_lt_of_eq r.isLt h.symm
  rw [List.getElem?_eq_getElem hr]
  exact congrArg some (vectorFrom_getElem Entry.cleared r.isLt hr).symm

theorem loadedEntry_mem {xs : List Entry} (h : xs.length = 64) (r : Resource) : (vectorFrom 64 Entry.cleared xs)[r] ∈ xs :=
  List.mem_of_getElem? (loadedEntry h r)

/-! ## The watches opened at a load -/

/-- Watches opened one after the other, each in place of the one it has the key of. -/
def reopened {α β : Type} (p : α → Bool) (same : α → β → Bool) (mk : α → β) (ws : List β) (xs : List α) : List β :=
  xs.foldl (fun ws x => if p x then ws.filter (fun w => !same x w) ++ [mk x] else ws) ws

/-- A watch stands at the end where every later one of its key is the same. -/
theorem mem_reopened {α β : Type} {p : α → Bool} {same : α → β → Bool} {mk : α → β} {w : β} (xs : List α) : ∀ ws : List β,
    (w ∈ ws ∨ ∃ x ∈ xs, p x = true ∧ mk x = w) → (∀ y ∈ xs, p y = true → same y w = true → mk y = w) →
    w ∈ reopened p same mk ws xs := by
  induction xs with
  | nil =>
    intro ws h _
    rcases h with h | ⟨x, hx, -⟩
    · exact h
    · exact absurd hx List.not_mem_nil
  | cons y ys ih =>
    intro ws h huniq
    have hstep : reopened p same mk ws (y :: ys)
        = reopened p same mk (if p y then ws.filter (fun w => !same y w) ++ [mk y] else ws) ys := rfl
    rw [hstep]
    refine ih _ ?_ (fun z hz => huniq z (List.mem_cons_of_mem _ hz))
    have hkeep : w ∈ ws → w ∈ (if p y then ws.filter (fun w => !same y w) ++ [mk y] else ws) := fun hw => by
      rcases hp : p y with _ | _
      · exact hw
      · rw [if_pos rfl]
        rcases hs : same y w with _ | _
        · exact List.mem_append_left _ (List.mem_filter.mpr ⟨hw, by rw [hs]; rfl⟩)
        · exact List.mem_append_right _ (List.mem_singleton.mpr (huniq y List.mem_cons_self hp hs).symm)
    rcases h with h | ⟨x, hx, hp, hmk⟩
    · exact .inl (hkeep h)
    · rcases List.mem_cons.mp hx with rfl | hx
      · rw [if_pos hp]
        exact .inl (List.mem_append_right _ (List.mem_singleton.mpr hmk.symm))
      · exact .inr ⟨x, hx, hp, hmk⟩

/-- Every holder slot of a table, in ascending resource number. -/
def tableSlots (entries : Vector Entry 64) : List (Resource × Slot) :=
  allResources.flatMap (fun r => entries[r].holders.map (fun h => (r, h)))

theorem mem_tableSlots {entries : Vector Entry 64} {r : Resource} {h : Slot} :
    (r, h) ∈ tableSlots entries ↔ h ∈ entries[r].holders := by
  rw [tableSlots, List.mem_flatMap]
  constructor
  · rintro ⟨r', -, hmem⟩
    obtain ⟨h', hh, heq⟩ := List.mem_map.mp hmem
    obtain ⟨rfl, rfl⟩ := Prod.mk.inj heq
    exact hh
  · intro hmem
    exact ⟨r, mem_allResources r, List.mem_map.mpr ⟨h, hmem, rfl⟩⟩

/-- The expiry watches after a load: one from zero on every slot of another station. -/
def expiryLoaded (own : Station) (entries : Vector Entry 64) (ws : List ExpiryWatch) : List ExpiryWatch :=
  reopened (fun x : Resource × Slot => x.2.station != own) (fun x w => w.on x.1 x.2.station)
    (fun x => { r := x.1, holder := x.2.station, gen := x.2.gen, elapsed := 0, queued := false }) ws (tableSlots entries)

/-- The presence watches after a load: one from zero on every other listed station. -/
def presenceLoaded (own : Station) (roster : Vector RosterEntry 32) (ws : List PresenceWatch) : List PresenceWatch :=
  reopened (fun v : Station => v != own && roster[v].state != .absent) (fun v w => w.station == v)
    (fun v => { station := v, inc := roster[v].inc, elapsed := 0, queued := false }) ws allStations

theorem State.openExpiries_form (xs : List (Resource × Slot)) : ∀ s : State,
    xs.foldl (fun s x => if x.2.station = s.own then s else s.openExpiry x.1 x.2.station x.2.gen) s
      = { s with tu := { s.tu with
          expiry := reopened (fun x : Resource × Slot => x.2.station != s.own) (fun x w => w.on x.1 x.2.station)
            (fun x => { r := x.1, holder := x.2.station, gen := x.2.gen, elapsed := 0, queued := false }) s.tu.expiry xs } } := by
  induction xs with
  | nil => exact fun _ => rfl
  | cons x xs ih =>
    intro s
    rw [List.foldl_cons, ih]
    by_cases hx : x.2.station = s.own
    · have hb : (x.2.station != s.own) = false := by simpa using hx
      simp only [if_pos hx, reopened, List.foldl_cons, hb, Bool.false_eq_true, if_false]
    · have hb : (x.2.station != s.own) = true := by simpa using hx
      have hown : (s.openExpiry x.1 x.2.station x.2.gen).own = s.own := rfl
      simp only [if_neg hx, reopened, List.foldl_cons, hb, if_true, hown]
      rfl

theorem State.openPresences_form (vs : List Station) : ∀ s : State,
    vs.foldl (fun s v => if v ≠ s.own ∧ (s.rosterOf v).state ≠ .absent then s.openPresence v (s.rosterOf v).inc else s) s
      = { s with tu := { s.tu with
          presence := reopened (fun v : Station => v != s.own && s.replica.roster[v].state != .absent)
            (fun v w => w.station == v)
            (fun v => { station := v, inc := s.replica.roster[v].inc, elapsed := 0, queued := false }) s.tu.presence vs } } := by
  induction vs with
  | nil => exact fun _ => rfl
  | cons v vs ih =>
    intro s
    rw [List.foldl_cons, ih]
    have hb : (v != s.own && s.replica.roster[v].state != .absent) = true ↔ v ≠ s.own ∧ (s.rosterOf v).state ≠ .absent := by
      simp only [Bool.and_eq_true, bne_iff_ne]
      exact Iff.rfl
    by_cases hv : v ≠ s.own ∧ (s.rosterOf v).state ≠ .absent
    · have hown : (s.openPresence v (s.rosterOf v).inc).own = s.own := rfl
      simp only [if_pos hv, reopened, List.foldl_cons, hb.mpr hv, if_true, hown]
      rfl
    · have hno : (v != s.own && s.replica.roster[v].state != .absent) = false := Bool.eq_false_iff.mpr (fun h => hv (hb.mp h))
      simp only [if_neg hv, reopened, List.foldl_cons, hno, Bool.false_eq_true, if_false]

/-- R125 at a load. -/
theorem State.openLoadedWatches_form (s : State) : s.openLoadedWatches = { s with tu := { s.tu with
    expiry := expiryLoaded s.own s.replica.entries s.tu.expiry
    presence := presenceLoaded s.own s.replica.roster s.tu.presence } } := by
  unfold State.openLoadedWatches
  dsimp only
  rw [State.openExpiries_form, State.openPresences_form]
  rfl

/-- The replica that a staged snapshot makes (R67). -/
def Staged.replica (x : Staged) : Replica :=
  { entries := vectorFrom 64 Entry.cleared x.entries, roster := loadedRoster x.roster, tsn := x.tsn, mismatch := none }

/-- R67, R125. -/
theorem State.loadStaged_form (s : State) (x : Staged) : s.loadStaged x = { s with
    replica := x.replica
    sc := { s.sc with staged := none, stallTimer := none, ownInc := x.roster[s.own].inc }
    tu := { s.tu with
      expiry := expiryLoaded s.own x.replica.entries s.tu.expiry
      presence := presenceLoaded s.own x.replica.roster s.tu.presence } } := by
  have hinc : (loadedRoster x.roster)[s.own].inc = x.roster[s.own].inc := by rw [loadedRoster_get]
  unfold State.loadStaged
  dsimp only
  rw [State.openLoadedWatches_form, ← hinc]
  rfl

theorem eq_of_nodup_map {α β : Type} {f : α → β} {l : List α} {x y : α} (h : (l.map f).Nodup) (hx : x ∈ l)
    (hy : y ∈ l) (hxy : f x = f y) : x = y := by
  induction l with
  | nil => exact nomatch hx
  | cons z zs ih =>
    obtain ⟨hz, hzs⟩ := List.nodup_cons.mp h
    rcases List.mem_cons.mp hx with hxz | hxs
    · rcases List.mem_cons.mp hy with hyz | hys
      · rw [hxz, hyz]
      · exact absurd (hxz ▸ hxy ▸ List.mem_map_of_mem hys) hz
    · rcases List.mem_cons.mp hy with hyz | hys
      · exact absurd (hyz ▸ hxy ▸ List.mem_map_of_mem hxs) hz
      · exact ih hzs hxs hys

/-- A slot of another station in a lawful entry is watched from zero (R2, R125). -/
theorem mem_expiryLoaded {own : Station} {entries : Vector Entry 64} {r : Resource} {h : Slot} (ws : List ExpiryWatch)
    (hcon : entries[r].consistent = true) (hh : h ∈ entries[r].holders) (ho : h.station ≠ own) :
    ({ r := r, holder := h.station, gen := h.gen, elapsed := 0, queued := false } : ExpiryWatch)
      ∈ expiryLoaded own entries ws := by
  have hascending := (Entry.Promotable.of_consistent hcon).ascending
  refine mem_reopened _ _ (.inr ⟨(r, h), mem_tableSlots.mpr hh, bne_iff_ne.mpr ho, rfl⟩) (fun y hy _ hsame => ?_)
  obtain ⟨r', h'⟩ := y
  have hh' := mem_tableSlots.mp hy
  simp only [ExpiryWatch.on, Bool.and_eq_true, beq_iff_eq] at hsame
  obtain ⟨rfl, hst⟩ := hsame
  have hnodup : (entries[r].holders.map Slot.station).Nodup := List.pairwise_map.mpr (hascending.imp Fin.ne_of_lt)
  have heq : h' = h := eq_of_nodup_map hnodup hh' hh hst.symm
  rw [heq]

theorem mem_presenceLoaded {own v : Station} {roster : Vector RosterEntry 32} (ws : List PresenceWatch) (ho : v ≠ own)
    (hv : roster[v].state ≠ .absent) :
    ({ station := v, inc := roster[v].inc, elapsed := 0, queued := false } : PresenceWatch)
      ∈ presenceLoaded own roster ws := by
  refine mem_reopened _ _ (.inr ⟨v, List.mem_finRange v, ?_, rfl⟩) (fun y _ _ hsame => ?_)
  · rw [bne_iff_ne.mpr ho, bne_iff_ne.mpr hv]
    rfl
  · obtain rfl := beq_iff_eq.mp hsame
    rfl

end Sys2Proof.Machine
end

section
/-! The eight causes of a failed join attempt (R53, R62, R66, R68). -/

namespace Sys2Proof.Machine

/-! ## A join attempt that fails -/

/-- `z` is where the attempt of `s` fails: of a replica that is not live nothing has changed (R62). -/
structure Failing (live : Bool) (s z : State) : Prop where
  frame : ∃ sc tu replica lu, z = { s with sc := sc, tu := tu, replica := replica, lu := lu }
  onLine : z.sc.station.onLine = true
  attemptNo : z.sc.attemptNo = s.sc.attemptNo
  kept : live = false → z.replica = s.replica ∧ z.sc.shadow = s.sc.shadow
    ∧ z.sc.control.filter (fun k => !k.kind.isMembership) = s.sc.control.filter (fun k => !k.kind.isMembership)

theorem Failing.joinFails {live : Bool} {s z : State} (h : Failing live s z) :
    JoinFails s (z.failedAttempt live).settle live := by
  obtain ⟨hframe, honLine, hattempt, hkept⟩ := h
  have hblocks : z.nu = s.nu ∧ z.requests = s.requests ∧ z.config = s.config ∧ z.tm = s.tm ∧ z.kp = s.kp := by
    obtain ⟨sc, tu, replica, lu, rfl⟩ := hframe
    exact ⟨rfl, rfl, rfl, rfl, rfl⟩
  obtain ⟨hnu, hrequests, hconfig, htm, hkp⟩ := hblocks
  refine ⟨fun hn => ?retry, fun hn => ?last⟩
  case retry =>
    obtain ⟨l, l', hz⟩ := State.failedAttempt_again z live (by rw [hattempt]; exact hn)
    have ht := (z.failedAttempt live).settle_settlesTo
    generalize (z.failedAttempt live).settle = t at ht
    rw [hz] at ht
    refine ⟨?_, ?_, ?_, ht.tu_presenceTimer, ht.requests.trans hrequests, ht.config.trans hconfig, ht.tm.trans htm,
      ht.kp.trans hkp⟩
    · rw [ht.sc]
      rcases live with _ | _
      · obtain ⟨-, hshadow, hcontrol⟩ := hkept rfl
        simp only [State.attemptOver, Bool.false_eq_true, if_false, hcontrol, hshadow, hattempt]
      · simp only [State.attemptOver, if_true, List.filter_nil, hattempt]
    · rw [← hnu]
      exact ht.nu_but_irq
    · rw [ht.replica]
      rcases live with _ | _
      · exact (hkept rfl).1
      · rfl
  case last =>
    obtain ⟨l, hz⟩ := State.failedAttempt_last z live (by rw [hattempt]; exact hn)
    obtain ⟨lu, he⟩ := (z.attemptOver live l).enterFaulted_eq .joinFailed honLine
    rw [hz]
    refine ⟨?_, State.enterFaulted_enters .joinFailed honLine ?_ ?_⟩
    · rw [(State.settle_settlesTo _).sc, he, ← hattempt]
      rfl
    · obtain ⟨sc, tu, replica, lu, rfl⟩ := hframe
      exact ⟨_, _, _, _, _, rfl⟩
    · rw [← hrequests]
      rfl

theorem JoinFails.of_exec {live : Bool} {s z : State} {c : Instr}
    (hexec : exec c s = .next (z.failedAttempt live).settle) (h : Failing live s z) : ∃ t, exec c s = .next t ∧ JoinFails s t live :=
  ⟨_, hexec, h.joinFails⟩

/-- Only the founding facts, the staged join or the line unit may have moved. -/
theorem Failing.of_station {s : State} (h : s.sc.station.onLine = true) (m l : Bool) (tu : TimerUnit) (lu : LineUnit) :
    Failing false s { s with sc := { s.sc with memberHeard := m, lowerHeard := l }, tu := tu, lu := lu } :=
  ⟨⟨_, _, _, _, rfl⟩, h, rfl, fun _ => ⟨rfl, rfl, rfl⟩⟩

/-! ## Its causes -/

theorem failing_of_wait {s : State} {n : Nat} (hst : s.sc.station = .joinWait) (hn : s.sc.joinTimer = some n)
    (hge : 40 * s.configField ConfigRecord.presencePeriod ≤ n) (hheard : s.sc.memberHeard = true ∨ s.sc.lowerHeard = true) :
    ∃ t, exec .joinWaitTimeout s = .next t ∧ JoinFails s t false := by
  have hreached : timerReached s.sc.joinTimer s.joinWaitMs = true := by
    rw [hn]
    exact decide_eq_true hge
  refine JoinFails.of_exec ?_ (Failing.of_station (s := s) (by rw [hst]; rfl) s.sc.memberHeard s.sc.lowerHeard s.tu s.lu)
  rw [exec_joinWaitTimeout, execJoinWaitTimeout, if_pos ⟨hst, hreached⟩, if_pos hheard]

theorem failing_of_stall {s : State} {n : Nat} (hst : s.sc.station = .snapshot) (hn : s.sc.stallTimer = some n)
    (hge : 40 * s.configField ConfigRecord.presencePeriod ≤ n) :
    ∃ t, exec .segmentStallTimeout s = .next t ∧ JoinFails s t false := by
  have hreached : timerReached s.sc.stallTimer s.joinWaitMs = true := by
    rw [hn]
    exact decide_eq_true hge
  refine JoinFails.of_exec ?_ (Failing.of_station (s := s) (by rw [hst]; rfl) s.sc.memberHeard s.sc.lowerHeard s.tu s.lu)
  rw [exec_segmentStallTimeout, execSegmentStallTimeout, if_pos ⟨hst, hreached⟩]

/-- The JOIN or READY leaves the queue; the refusals stay (R56). -/
theorem membership_removed (k : ControlKind) (hk : k.isMembership = true) (xs : List ControlItem) :
    (xs.eraseP (fun c => c.kind == k)).filter (fun c => !c.kind.isMembership) = xs.filter (fun c => !c.kind.isMembership) :=
  filter_eraseP_of_dropped _ _ (fun x hx => by rw [beq_iff_eq.mp hx, hk]; rfl) xs

theorem failing_of_joinAbandoned {s : State} {a : Attempt} {c : Instr} {l : LineUnit} (hfail : s.fails a c l)
    (hw : a.withdrawn = false) (hsrc : a.source = .control .join) (hl : s.retryLimit ≤ a.count + 1)
    (hst : s.sc.station = .joinWait) : ∃ t, exec c s = .next t ∧ JoinFails s t false := by
  have hexec := hfail.exec_abandons hw hl
  have hst' : ((s.setLu l).removeControl .join).sc.station = .joinWait := hst
  rw [hsrc] at hexec
  simp only [State.abandon, if_pos hst'] at hexec
  refine JoinFails.of_exec hexec ⟨⟨_, _, _, _, rfl⟩, ?_, rfl, fun _ => ⟨rfl, rfl, ?_⟩⟩
  · exact (congrArg StationState.onLine hst).trans rfl
  · exact membership_removed .join rfl s.sc.control

theorem failing_of_readyAbandoned {s : State} {a : Attempt} {c : Instr} {l : LineUnit} (hfail : s.fails a c l)
    (hw : a.withdrawn = false) (hsrc : a.source = .control .ready) (hl : s.retryLimit ≤ a.count + 1)
    (hst : s.sc.station = .synced) (hn : 3 ≤ s.sc.readyRequeue) : ∃ t, exec c s = .next t ∧ JoinFails s t true := by
  have hexec := hfail.exec_abandons hw hl
  have hst' : ((s.setLu l).removeControl .ready).sc.station = .synced := hst
  have hmany : ¬ s.sc.readyRequeue + 1 ≤ 3 := by omega
  rw [hsrc] at hexec
  simp only [State.abandon, State.readyAbandoned, if_pos hst'] at hexec
  rw [if_neg (by exact hmany)] at hexec
  refine JoinFails.of_exec hexec ⟨⟨_, _, _, _, rfl⟩, ?_, rfl, nofun⟩
  exact (congrArg StationState.onLine hst).trans rfl

/-- What a joiner accepts reaches `State.joinerTakes` (R65, R66). -/
theorem State.hears.exec_joiner {s : State} {f : Frame} (hh : s.hears f) (hs : f.sender ≠ s.own)
    (h : (s.sc.station = .joinWait ∧ s.sc.joinAccepted = true) ∨ s.sc.station = .snapshot) :
    Machine.exec (.frameAccepted (.foreign f)) s = .next ((s.heard f).joinerTakes f).settle := by
  rw [hh.exec_handOn hs, State.handOn_joiner (x := s.heard f) h]

theorem takeSegment_fails_waiting {s : State} {sender : Station} {tsn : Word16} {p : Payload}
    (h : s.sc.station = .joinWait) (hp : ∀ records, p = .roster records → records[s.own].state ≠ .joining) :
    s.takeSegment sender tsn p = s.failedAttempt false := by
  unfold State.takeSegment
  rcases p with records | ⟨i, four⟩
  · simp only [h]
    exact if_neg (hp records rfl)
  · simp only [h]

theorem takeSegment_fails_staging {s : State} {sender : Station} {tsn : Word16} {p : Payload}
    (h : s.sc.station = .snapshot) (hp : ∀ x i four, s.sc.staged = some x → p = .entries i four →
      ¬(i.val = x.last ∧ sender = x.sender ∧ tsn = x.tsn)) :
    s.takeSegment sender tsn p = s.failedAttempt false := by
  unfold State.takeSegment
  rcases hx : s.sc.staged with _ | x
  · rcases p with records | ⟨i, four⟩ <;> simp only [h]
  · rcases p with records | ⟨i, four⟩
    · simp only [h]
    · simp only [h]
      exact if_neg (fun hall => hp x i four hx rfl ⟨Nat.succ.inj hall.1, hall.2⟩)

theorem failing_of_segment {s : State} {f : Frame} {attempt : Fin 4} {tsn : Word16} {p : Payload} (hh : s.hears f)
    (hs : f.sender ≠ s.own) (hb : f.body = .snapshot s.own attempt tsn p) (ha : attempt.val = s.sc.attemptNo)
    (h : (s.sc.station = .joinWait ∧ s.sc.joinAccepted = true
          ∧ ∀ records, p = .roster records → records[s.own].state ≠ .joining)
        ∨ (s.sc.station = .snapshot ∧ ∀ x i four, s.sc.staged = some x → p = .entries i four →
            ¬(i.val = x.last ∧ f.sender = x.sender ∧ tsn = x.tsn))) :
    ∃ t, exec (.frameAccepted (.foreign f)) s = .next t ∧ JoinFails s t false := by
  have hexec := hh.exec_joiner hs (h.imp (fun h => ⟨h.1, h.2.1⟩) And.left)
  rw [State.joinerTakes_segment (s := s.heard f) hb ha, State.foundingFacts_eq] at hexec
  rcases h with ⟨hst, -, hp⟩ | ⟨hst, hp⟩
  · rw [takeSegment_fails_waiting (by exact hst) (by exact hp)] at hexec
    exact JoinFails.of_exec hexec (Failing.of_station (State.onLine_of_listening hh.1) _ _ _ _)
  · rw [takeSegment_fails_staging (by exact hst) (by exact hp)] at hexec
    exact JoinFails.of_exec hexec (Failing.of_station (State.onLine_of_listening hh.1) _ _ _ _)

theorem failing_of_fullQueue {s : State} {f : Frame} (hh : s.hears f) (hs : f.sender ≠ s.own) (hstate : f.body.isState = true)
    (h : (s.sc.station = .joinWait ∧ s.sc.joinAccepted = true) ∨ s.sc.station = .snapshot) (hfull : 24 ≤ s.sc.catchUp.length) :
    ∃ t, exec (.frameAccepted (.foreign f)) s = .next t ∧ JoinFails s t false := by
  have hexec := hh.exec_joiner hs h
  rw [State.joinerTakes_state hstate, State.foundingFacts_eq, State.recordCatchUp,
    if_neg (by exact Nat.not_lt.mpr hfull)] at hexec
  exact JoinFails.of_exec hexec (Failing.of_station (State.onLine_of_listening hh.1) _ _ _ _)

/-- The own READY of a station that is not listed as JOINING (R33, R68). -/
theorem State.applyLive_strayReady {s : State} {f : Frame} (hb : f.body = .ready) (hst : s.sc.station = .synced)
    (hmiss : s.listedAs f (fun st => st == .joining) = false) :
    s.applyLive true f = (s.advanceTsn.followInc).failedAttempt true := by
  have happ : s.applyRule true true f = (s.advanceTsn, { Report.nothing with ready := some false }) := by
    rw [State.applyRule]
    simp only [hb, hmiss, Bool.false_eq_true, if_false, if_true]
  rw [State.applyLive_own, happ]
  refine (State.takeReport_ready _ false).trans ?_
  rw [State.takeReadyReport, if_pos (by exact hst)]
  rfl

theorem failing_of_strayReady {s : State} {a : Attempt} (hsent : s.sent a) (hst : s.sc.station = .synced)
    (hb : a.frame.body = .ready) (hs : a.frame.sender = s.own)
    (hstray : ¬(s.replica.roster[s.own].state = .joining ∧ a.frame.inc = s.replica.roster[s.own].inc)) :
    ∃ t, exec (.frameAccepted .own) s = .next t ∧ JoinFails s t true := by
  obtain ⟨control, shadow, tu, hleft⟩ := s.ownLeft_form a
  have hst' : (s.ownLeft a).sc.station = .synced := by
    rw [hleft]
    exact hst
  have hmiss : (s.ownLeft a).listedAs a.frame (fun st => st == .joining) = false := by
    rw [State.listedAs, State.rosterOf, hs, hleft]
    refine Bool.eq_false_iff.mpr (fun hl => hstray ?_)
    obtain ⟨hstate, hinc⟩ := Bool.and_eq_true_iff.mp hl
    exact ⟨beq_iff_eq.mp hstate, beq_iff_eq.mp hinc⟩
  have hexec := hsent.exec
  rw [State.handOn_live_state (by rw [hst']; rfl) (by rw [hb]; rfl), State.applyLive_strayReady hb hst' hmiss, hleft] at hexec
  refine JoinFails.of_exec hexec ⟨⟨_, _, _, _, rfl⟩, ?_, rfl, nofun⟩
  exact (congrArg StationState.onLine hst).trans rfl

end Sys2Proof.Machine
end

section
/-! The last segment of a snapshot (R66, R67), and the own listing evicted by a replayed frame (R53). -/

namespace Sys2Proof.Machine

/-! ## Load and replay -/

/-- The staged snapshot with its last four entries (R66). -/
def Staged.completed (x : Staged) (four : Vector Entry 4) : Staged :=
  { x with entries := x.entries ++ four.toList, last := 16 }

theorem Staged.completed_length {x : Staged} (h : x.entries.length = 60) (four : Vector Entry 4) :
    (x.completed four).entries.length = 64 := by
  rw [Staged.completed, List.length_append, h, Vector.length_toList]

/-- The joiner that has heard `f` and loaded the snapshot (R67, R97, R118, R125). -/
def State.snapshotLoaded (s : State) (f : Frame) (y : Staged) : State :=
  { s.heard f with
    replica := y.replica
    sc := { s.sc with staged := none, stallTimer := none, ownInc := y.roster[s.own].inc }
    tu := { (s.heard f).tu with
      expiry := expiryLoaded s.own y.replica.entries s.tu.expiry
      presence := presenceLoaded s.own y.replica.roster (s.heard f).tu.presence } }

/-- What follows the replay (R53, R67). -/
def State.afterReplay (y : State × Bool) : State :=
  let s1 := y.1.setSc { y.1.sc with catchUp := [] }
  if y.2 then (s1.setSc { s1.sc with station := .synced }).queueMembership .ready else s1.failedAttempt true

theorem State.loadAndReplay_eq (s : State) (y : Staged) :
    s.loadAndReplay y = State.afterReplay (State.replay s.sc.catchUp (s.loadStaged y)) := rfl

/-- Segment 16 heard in its turn: load and replay. -/
theorem State.hears.exec_lastSegment {s : State} {f : Frame} {x : Staged} {attempt : Fin 4} {four : Vector Entry 4}
    (hh : s.hears f) (hs : f.sender ≠ s.own) (hst : s.sc.station = .snapshot) (hx : s.sc.staged = some x)
    (hlast : x.last = 15) (hsender : x.sender = f.sender) (hb : f.body = .snapshot s.own attempt x.tsn (.entries 15 four))
    (ha : attempt.val = s.sc.attemptNo) :
    Machine.exec (.frameAccepted (.foreign f)) s
      = .next (State.afterReplay (State.replay s.sc.catchUp (s.snapshotLoaded f (x.completed four)))).settle := by
  rw [hh.exec_joiner hs (.inr hst), State.joinerTakes_segment (s := s.heard f) hb ha,
    State.foundingFacts_snapshot (s := s.heard f) hst,
    State.takeSegment_next (s := s.heard f) hst hx (by rw [hlast]; rfl) hsender.symm, if_pos (by rfl),
    State.loadAndReplay_eq, State.loadStaged_form]
  rfl

/-- A recorded frame is neither compared nor answered (R53). -/
theorem State.applyFrame_replayed (s : State) (g : Frame) : (s.applyFrame false false g).1 = (s.applyRule false false g).1 :=
  rfl

theorem State.replay_stops {s : State} {g : Frame} (h : ((s.applyRule false false g).1.rosterOf
    (s.applyRule false false g).1.own).state = .absent) (gs : List Frame) :
    State.replay (g :: gs) s = ((s.applyRule false false g).1, false) := by
  rw [State.replay]
  exact if_pos h

theorem State.replay_goes_on {s : State} {g : Frame} (h : ((s.applyRule false false g).1.rosterOf
    (s.applyRule false false g).1.own).state ≠ .absent) (gs : List Frame) :
    State.replay (g :: gs) s = State.replay gs (s.applyRule false false g).1 := by
  rw [State.replay]
  exact if_neg h

/-! ## The own listing evicted -/

/-- An EVICT of this station, which has a role in no entry, by a recorded frame (R45, R53). -/
theorem State.replay_ownEvicted {s : State} {g : Frame} {i : Byte} (hq : s.lu.sending = false) (hb : g.body = .evict s.own i)
    (hhit : (s.validActor g && (s.rosterOf s.own).state != .absent && (s.rosterOf s.own).inc == i) = true)
    (h : s.oneRole s.own) : ∃ replica shadow tu lu, State.replay [g] s = ({ s with
      replica := replica, sc := { s.sc with shadow := shadow }, tu := tu, lu := lu }, false) := by
  have happ : (s.applyRule false false g).1 = (s.removeAndTell false s.own .evicted).advanceTsn := by
    rw [State.applyRule]
    simp only [hb, hhit, if_true, Bool.false_eq_true, if_false]
  have hremoved := State.removeAndTell_removed hq h false .evicted
  obtain ⟨entries, roster, tu, l, shadow, hx⟩ := hremoved.own_frame h
  have habsent := hremoved.absent
  rw [State.replay_stops, happ, hx]
  · exact ⟨_, _, _, _, rfl⟩
  · rw [happ]
    generalize s.removeAndTell false s.own .evicted = x at hx habsent
    subst hx
    exact habsent

theorem Staged.listed {x : Staged} {v : Station} : x.replica.roster[v] =
    { state := x.roster[v].state, inc := x.roster[v].inc, providingFor := x.roster[v].providingFor
      provider := allStations.find? (fun y => x.roster[y].providingFor == some v) } := loadedRoster_get x.roster v

theorem failing_of_ownEviction {s : State} {f : Frame} {x : Staged} {attempt : Fin 4} {four : Vector Entry 4} {g : Frame}
    (hh : s.hears f) (hs : f.sender ≠ s.own) (hst : s.sc.station = .snapshot) (hx : s.sc.staged = some x)
    (hlast : x.last = 15) (hlen : x.entries.length = 60) (hsender : x.sender = f.sender)
    (hb : f.body = .snapshot s.own attempt x.tsn (.entries 15 four)) (ha : attempt.val = s.sc.attemptNo)
    (hfree : ∀ e ∈ x.entries ++ four.toList, e.holds s.own = false ∧ e.waits s.own = false) (hg : s.sc.catchUp = [g])
    (hgb : g.body = .evict s.own x.roster[s.own].inc) (hrole : g.role = .member)
    (hmember : x.roster[g.sender].state = .member) (hinc : g.inc = x.roster[g.sender].inc)
    (hlisted : x.roster[s.own].state ≠ .absent) :
    ∃ t, exec (.frameAccepted (.foreign f)) s = .next t ∧ JoinFails s t true := by
  have hroster : ∀ v : Station, (s.snapshotLoaded f (x.completed four)).rosterOf v
      = (x.completed four).replica.roster[v] := fun _ => rfl
  have hvalid : (s.snapshotLoaded f (x.completed four)).validActor g = true := by
    rw [State.validActor, hroster, Staged.listed]
    exact Bool.and_eq_true_iff.mpr ⟨Bool.and_eq_true_iff.mpr ⟨beq_iff_eq.mpr hrole, beq_iff_eq.mpr hmember⟩,
      beq_iff_eq.mpr hinc⟩
  have hhit : ((s.snapshotLoaded f (x.completed four)).validActor g
      && ((s.snapshotLoaded f (x.completed four)).rosterOf s.own).state != .absent
      && ((s.snapshotLoaded f (x.completed four)).rosterOf s.own).inc == x.roster[s.own].inc) = true := by
    rw [hvalid, hroster, Staged.listed, Bool.true_and]
    exact Bool.and_eq_true_iff.mpr ⟨bne_iff_ne.mpr hlisted, beq_self_eq_true _⟩
  have hone : (s.snapshotLoaded f (x.completed four)).oneRole s.own := fun r hboth => by
    have hfree' := hfree _ (loadedEntry_mem (Staged.completed_length hlen four) r)
    exact Bool.false_ne_true (hfree'.1.symm.trans hboth.1)
  have hexec := hh.exec_lastSegment hs hst hx hlast hsender hb ha
  obtain ⟨replica, shadow, tu, lu, hreplay⟩ := State.replay_ownEvicted (s := s.snapshotLoaded f (x.completed four))
    (by exact hh.not_sending) (by exact hgb) hhit hone
  rw [hg, hreplay] at hexec
  refine JoinFails.of_exec hexec ⟨⟨_, _, _, _, rfl⟩, ?_, rfl, nofun⟩
  exact (congrArg StationState.onLine hst).trans rfl

/-- Settles O54: each cause reaches `State.failedAttempt` out of a state that differs in what the failure empties. -/
theorem failedJoinAttempt : Obligations.FailedJoinAttempt := by
  intro s c live h
  rcases h with ⟨n, rfl, rfl, hst, hn, hge, hheard⟩ | ⟨a, l, rfl, hfail, hw, hsrc, hl, hst⟩
    | ⟨f, attempt, tsn, p, rfl, rfl, hh, hs, hb, ha, h⟩ | ⟨n, rfl, rfl, hst, hn, hge⟩
    | ⟨f, rfl, rfl, hh, hs, hstate, hst, hfull⟩
    | ⟨f, x, attempt, four, g, rfl, rfl, hh, hs, hst, hx, hlast, hlen, hsender, hb, ha, hfree, hg, hgb, hrole, hmember, hinc,
        hlisted⟩
    | ⟨a, rfl, rfl, hsent, hst, hb, hs, hstray⟩ | ⟨a, l, rfl, hfail, hw, hsrc, hl, hst, hn⟩
  · exact failing_of_wait hst hn hge hheard
  · exact failing_of_joinAbandoned hfail hw hsrc hl hst
  · exact failing_of_segment hh hs hb ha h
  · exact failing_of_stall hst hn hge
  · exact failing_of_fullQueue hh hs hstate hst hfull
  · exact failing_of_ownEviction hh hs hst hx hlast hlen hsender hb ha hfree hg hgb hrole hmember hinc hlisted
  · exact failing_of_strayReady hsent hst hb hs hstray
  · exact failing_of_readyAbandoned hfail hw hsrc hl hst hn

end Sys2Proof.Machine
end

section
/-! A station with a role in no entry gets none from frames of others (R10 to R25), and the removal of another station
tells it nothing (R28, R46 to R48). -/

namespace Sys2Proof

/-! ## One entry -/

/-- Station `u` neither holds nor waits. -/
structure Entry.Roleless (u : Station) (e : Entry) : Prop where
  holders : ∀ h ∈ e.holders, h.station ≠ u
  waiters : ∀ w ∈ e.waiters, w.station ≠ u

theorem Entry.roleless_iff {u : Station} {e : Entry} : e.Roleless u ↔ e.holds u = false ∧ e.waits u = false := by
  have hholds : e.holds u = false ↔ ∀ h ∈ e.holders, h.station ≠ u := by simp [Entry.holds]
  have hwaits : e.waits u = false ↔ ∀ w ∈ e.waiters, w.station ≠ u := by simp [Entry.waits]
  rw [hholds, hwaits]
  exact ⟨fun h => ⟨h.holders, h.waiters⟩, fun h => ⟨h.1, h.2⟩⟩

theorem promoteFrom_others {u : Station} (ws : List Waiter) : ∀ e : Entry, (∀ h ∈ e.holders, h.station ≠ u) →
    (∀ w ∈ ws, w.station ≠ u) → ∀ h ∈ (promoteFrom ws e).1.holders, h.station ≠ u := by
  induction ws with
  | nil => exact fun _ h _ => h
  | cons w ws ih =>
    intro e h hws
    rcases ha : e.admits w.mode with _ | _
    · rw [promoteFrom_stops w ws e ha]
      exact h
    · rw [promoteFrom_grants w ws e ha]
      refine ih _ (fun x hx => ?_) (fun x hx => hws x (List.mem_cons_of_mem _ hx))
      rcases (insertSlot_mem _ _ _).mp hx with rfl | hx
      · exact hws w List.mem_cons_self
      · exact h x hx

theorem Entry.Roleless.promote {u : Station} {e : Entry} (h : e.Roleless u) : e.promote.1.Roleless u :=
  ⟨promoteFrom_others e.waiters e h.holders h.waiters, fun w hw => h.waiters w ((promoteFrom_waiters e.waiters e).subset hw)⟩

theorem Entry.Roleless.grants {u : Station} {e : Entry} (h : e.Roleless u) : ∀ g ∈ e.promote.2, g.station ≠ u := fun g hg => by
  obtain ⟨w, hw, hst, -⟩ := Entry.promote_grantee hg
  exact hst ▸ h.waiters w hw

theorem Entry.Roleless.dropHolder {u : Station} {e : Entry} (h : e.Roleless u) (v : Station) : (e.dropHolder v).Roleless u :=
  ⟨fun x hx => h.holders x ((List.mem_filter.mp hx).1), h.waiters⟩

theorem Entry.Roleless.dropWaiter {u : Station} {e : Entry} (h : e.Roleless u) (v : Station) : (e.dropWaiter v).Roleless u :=
  ⟨h.holders, fun w hw => h.waiters w ((List.mem_filter.mp hw).1)⟩

theorem Entry.Roleless.renew {u : Station} {e : Entry} (h : e.Roleless u) (v : Station) : (e.renew v).Roleless u := by
  refine ⟨fun x hx => ?_, h.waiters⟩
  obtain ⟨y, hy, rfl⟩ := List.mem_map.mp hx
  have hstation : (if y.station = v then { y with gen := e.gen + 1 } else y).station = y.station := by split <;> rfl
  rw [hstation]
  exact h.holders y hy

theorem Entry.Roleless.claim {u v : Station} {e : Entry} (h : e.Roleless u) (hv : v ≠ u) (m : LeaseMode) (w : Bool) :
    (e.claim v m w).Roleless u := by
  by_cases hg : e.decideClaim v m w = .granted
  · rw [Entry.claim_of_granted hg]
    refine ⟨fun x hx => ?_, h.waiters⟩
    rcases (insertSlot_mem _ _ _).mp hx with rfl | hx
    · exact hv
    · exact h.holders x hx
  · by_cases hw : e.decideClaim v m w = .waiting
    · rw [Entry.claim_of_waiting hw]
      refine ⟨h.holders, fun x hx => ?_⟩
      rcases List.mem_append.mp hx with hx | hx
      · exact h.waiters x hx
      · rw [List.mem_singleton.mp hx]
        exact hv
    · rw [Entry.claim_of_refused hg hw]
      exact h

namespace Machine

theorem EntryRule.roleless {u v : Station} (hv : v ≠ u) : EntryRule v (Entry.Roleless u) where
  claim := fun _ m w h => h.claim hv m w
  renew := fun _ h => h.renew v
  dropHolder := fun _ x h => (h.dropHolder x).promote
  dropWaiter := fun _ x h => (h.dropWaiter x).promote

/-- The grants of a table frame go to others. -/
theorem tableRule_grants {u : Station} {e : Entry} (h : e.Roleless u) (v : Station) (b : Body) :
    ∀ g ∈ (tableRule e v b).2, g.station ≠ u := by
  have hnone : ∀ g ∈ ([] : List Grant), g.station ≠ u := fun _ hg => nomatch hg
  rcases b with ⟨r, m, w, t⟩ | ⟨r, t⟩ | r | ⟨r, t⟩ | ⟨r, x, g⟩ | ⟨d, a⟩ | _ | _ | ⟨x, i⟩ | _ | ⟨x, a⟩ | ⟨x, a, t, p⟩
  case release =>
    rw [tableRule]
    split
    · exact (h.dropHolder v).grants
    · exact hnone
  case withdraw =>
    rw [tableRule]
    split
    · exact (h.dropWaiter v).grants
    · exact hnone
  case expire =>
    rw [tableRule]
    split
    · exact (h.dropHolder x).grants
    · exact hnone
  all_goals exact hnone

/-! ## The state -/

theorem State.grantNotes_others {s : State} (r : Resource) {gs : List Grant} (h : ∀ g ∈ gs, g.station ≠ s.own) :
    s.grantNotes r gs = [] := by
  have hnone : gs.filter (fun g => g.station == s.own) = [] :=
    List.filter_eq_nil_iff.mpr (fun g hg => by simpa using h g hg)
  rw [State.grantNotes, hnone]
  rfl

/-- A pass in which no grant goes to this station. -/
theorem PassDone.quiet {v : Station} {gone : Prop} {s x : State} {rs : List Resource} {act : Resource → Entry × List Grant}
    (hx : PassDone v gone s x rs act) (h : ∀ r, ∀ g ∈ (act r).2, g.station ≠ s.own) : ∃ entries tu l, x = { s with
      replica := { s.replica with entries := entries }, tu := tu, lu := { s.lu with current := l } } := by
  obtain ⟨entries, tu, l, hxf⟩ := hx.frame
  have hnone : rs.flatMap (fun r => s.grantNotes r (act r).2) = [] :=
    List.flatMap_eq_nil_iff.mpr (fun r _ => State.grantNotes_others r (h r))
  rw [hnone] at hxf
  exact ⟨entries, tu, l, hxf⟩

/-- A removal from the table in which no grant goes to this station (R25, R28). -/
theorem State.removeFromTable_quiet {s : State} (hq : s.lu.sending = false)
    (h : s.eachEntry (Entry.Roleless s.own)) (v : Station) : ∃ entries tu l, s.removeFromTable v = { s with
      replica := { s.replica with entries := entries }, tu := tu, lu := { s.lu with current := l } } := by
  have hfirst := State.holderPass_done hq v
  have hholders := h.pass hfirst (fun r => ((h r).dropHolder v).promote)
  obtain ⟨entries, tu, l, hx⟩ := hfirst.quiet (fun r => ((h r).dropHolder v).grants)
  have hown : (s.holderPass v).own = s.own := by rw [hx]; rfl
  obtain ⟨entries', tu', l', hy⟩ := (State.waiterPass_done (s := s.holderPass v) (by rw [hx]; exact hq) v).quiet
    (fun r => by rw [hown]; exact ((hholders r).dropWaiter v).grants)
  rw [State.removeFromTable_passes, hy, hx]
  exact ⟨entries', tu', l', rfl⟩

/-- Pairings cleared leave every listing, and no shadow where there was none. -/
theorem State.clearPairings_keeps (s : State) (v : Station) : ∃ roster shadow, s.clearPairings v = { s with
      replica := { s.replica with roster := roster }, sc := { s.sc with shadow := shadow } }
    ∧ (s.sc.shadow = none → shadow = none) ∧ ∀ y : Station, roster[y].state = s.replica.roster[y].state := by
  have hend : ∀ (s : State) (x y : Station), ∃ roster shadow, s.endPairing x y = { s with
      replica := { s.replica with roster := roster }, sc := { s.sc with shadow := shadow } }
      ∧ (s.sc.shadow = none → shadow = none) ∧ ∀ y : Station, roster[y].state = s.replica.roster[y].state := fun s x y => by
    rw [State.endPairing_form]
    refine ⟨_, _, rfl, fun h => ?_, fun z => by rw [unpaired_get]⟩
    rw [h, ite_self]
  have hfirst : ∃ roster shadow, s.clearProvided v = { s with
      replica := { s.replica with roster := roster }, sc := { s.sc with shadow := shadow } }
      ∧ (s.sc.shadow = none → shadow = none) ∧ ∀ y : Station, roster[y].state = s.replica.roster[y].state := by
    rw [State.clearProvided]
    split
    · exact hend s v _
    · exact ⟨_, _, rfl, id, fun _ => rfl⟩
  obtain ⟨roster, shadow, hx, hnone, hstate⟩ := hfirst
  rw [State.clearPairings_halves, State.clearProvider]
  split
  · obtain ⟨roster', shadow', hy, hnone', hstate'⟩ := hend (s.clearProvided v) ‹_› v
    rw [hy, hx]
    rw [hx] at hnone' hstate'
    exact ⟨roster', shadow', rfl, fun h => hnone' (hnone h), fun y => (hstate' y).trans (hstate y)⟩
  · exact ⟨roster, shadow, hx, hnone, hstate⟩

theorem State.delist_form (x : State) (v : Station) : ∃ e tu, x.delist v = { x with
    replica := { x.replica with roster := x.replica.roster.set v.val e }, tu := tu } :=
  ⟨{ state := .absent, inc := (x.rosterOf v).inc, provider := none, providingFor := none }, (x.delist v).tu, rfl⟩

/-- The removal of another station tells this one nothing, where it has a role in no entry, keeps no shadow, and the
replica is not live (R28, R46 to R48, R53). -/
theorem State.removeAndTell_quiet {s : State} (hq : s.lu.sending = false) {v : Station} (hv : v ≠ s.own)
    (h : s.eachEntry (Entry.Roleless s.own)) (hshadow : s.sc.shadow = none) (c : MembershipCause) :
    ∃ entries roster tu l, s.removeAndTell false v c = { s with
      replica := { s.replica with entries := entries, roster := roster }, tu := tu, lu := { s.lu with current := l } }
    ∧ ∀ y ≠ v, roster[y].state = s.replica.roster[y].state := by
  obtain ⟨entries, tu, l, hx⟩ := State.removeFromTable_quiet hq h v
  obtain ⟨roster, shadow, hy, hnone, hstate⟩ := (s.removeFromTable v).clearPairings_keeps v
  have hsteps : s.removeAndTell false v c = ((s.removeFromTable v).clearPairings v).delist v := by
    have hown : (((s.removeFromTable v).clearPairings v).delist v).own = s.own := by
      have hdelist : ∀ x : State, (x.delist v).own = x.own := fun _ => rfl
      rw [hdelist, hy, hx]
      rfl
    rw [State.removeAndTell, State.removeStation_steps, State.dropIfOwn, hown, if_neg hv]
    exact if_neg (fun h => Bool.false_ne_true h.1)
  obtain ⟨e, tu', hz⟩ := ((s.removeFromTable v).clearPairings v).delist_form v
  rw [hsteps, hz, hy]
  rw [hx] at hnone hstate ⊢
  obtain rfl := hnone hshadow
  refine ⟨entries, _, tu', l, by rw [← hshadow], fun y hy => ?_⟩
  exact (congrArg RosterEntry.state ((roster_set _ _ v y).trans (if_neg hy))).trans (hstate y)

end Machine
end Sys2Proof
end

section
/-! The replay of recorded frames (R53, R67): what each leaves alone. -/

namespace Sys2Proof.Machine

/-! ## What replay needs and keeps -/

/-- This station is listed, has a role in no entry and keeps no shadow, and no attempt of it is on the line. -/
structure State.MayReplay (s : State) : Prop where
  quiet : s.lu.sending = false
  roleless : s.eachEntry (Entry.Roleless s.own)
  listed : s.replica.roster[s.own].state ≠ .absent
  shadow : s.sc.shadow = none

/-- A recorded frame is a state frame of another station, and no EVICT of this one. -/
structure State.Replays (s : State) (g : Frame) : Prop where
  state : g.body.isState = true
  sender : g.sender ≠ s.own
  spares : ∀ i, g.body ≠ .evict s.own i

/-- `n` recorded frames move the tables, the TSN by `n`, and the Timer Unit; an attempt may be marked withdrawn. -/
def State.RecordsApplied (n : Nat) (s x : State) : Prop :=
  ∃ entries roster tu l, x = { s with
    replica := { s.replica with entries := entries, roster := roster, tsn := s.replica.tsn + BitVec.ofNat 16 n }
    tu := tu, lu := { s.lu with current := l } }

theorem State.RecordsApplied.zero (s : State) : s.RecordsApplied 0 s :=
  ⟨s.replica.entries, s.replica.roster, s.tu, s.lu.current, by simp⟩

theorem State.RecordsApplied.succ {n : Nat} {s x y : State} (h : s.RecordsApplied 1 x) (g : x.RecordsApplied n y) :
    s.RecordsApplied (n + 1) y := by
  obtain ⟨entries, roster, tu, l, rfl⟩ := h
  obtain ⟨entries', roster', tu', l', rfl⟩ := g
  refine ⟨entries', roster', tu', l', ?_⟩
  have htsn : s.replica.tsn + BitVec.ofNat 16 (n + 1) = s.replica.tsn + BitVec.ofNat 16 1 + BitVec.ofNat 16 n := by
    rw [Nat.add_comm, BitVec.ofNat_add, BitVec.add_assoc]
  rw [htsn]

theorem State.RecordsApplied.own {n : Nat} {s x : State} (h : s.RecordsApplied n x) : x.own = s.own := by
  obtain ⟨entries, roster, tu, l, rfl⟩ := h
  rfl

/-- What leaves the tables alone but for the TSN. -/
theorem State.RecordsApplied.advance (s : State) : s.RecordsApplied 1 s.advanceTsn :=
  ⟨s.replica.entries, s.replica.roster, s.tu, s.lu.current, rfl⟩

/-! ## One recorded frame -/

/-- What one recorded frame leaves. -/
structure State.RecordApplied (s x : State) : Prop where
  applied : s.RecordsApplied 1 x
  listed : x.replica.roster[s.own].state ≠ .absent

theorem State.MayReplay.removal {s : State} (h : s.MayReplay) {v : Station} (hv : v ≠ s.own) (c : MembershipCause) :
    s.RecordApplied (s.removeAndTell false v c).advanceTsn := by
  obtain ⟨entries, roster, tu, l, hx, hstate⟩ := State.removeAndTell_quiet h.quiet hv h.roleless h.shadow c
  rw [hx]
  refine ⟨⟨entries, roster, tu, l, rfl⟩, ?_⟩
  have hown := hstate s.own (Ne.symm hv)
  exact fun habsent => h.listed (hown.symm.trans habsent)

theorem State.tableLoss_quiet {s : State} (h : s.eachEntry (Entry.Roleless s.own)) (valid : Bool) (r : Resource) (b : Body) :
    s.tableLoss valid r b = [] := by
  unfold State.tableLoss
  split
  · refine if_neg (fun hl => ?_)
    obtain ⟨-, rfl, hholds, -⟩ := hl
    have hno := (Entry.roleless_iff.mp (h r)).1
    rw [Entry.holds_of_holdsAt hholds] at hno
    exact nomatch hno
  · rfl

/-- A table frame acts on its entry (R12 to R22), and tells nothing. -/
theorem State.applyRule_table_quiet {s : State} {g : Frame} {r : Resource} (hq : s.lu.sending = false)
    (h : s.eachEntry (Entry.Roleless s.own)) (hr : tableResource g.body = some r) (hs : g.sender ≠ s.own) :
    ∃ tu l, (s.applyRule false false g).1 = { s with
      replica := { s.replica with
        entries := s.replica.entries.set r.val (if s.validActor g
          then (tableRule s.replica.entries[r] g.sender g.body).1 else s.replica.entries[r])
        tsn := s.replica.tsn + 1 }
      tu := tu, lu := { s.lu with current := l } } := by
  have hloss := State.tableLoss_quiet h
  rcases hv : s.validActor g with _ | _
  · rw [State.applyRule_table_stray false hr hv, State.tableApplied, hloss]
    exact ⟨_, s.lu.current, rfl⟩
  · obtain ⟨l, hl⟩ := State.applyRule_table_valid hq false hr hs hv
    have hgrants := State.grantNotes_others r (tableRule_grants (h r) g.sender g.body)
    rw [hl, State.tableApplied, hloss, hgrants, if_pos rfl]
    exact ⟨_, l, rfl⟩

theorem State.MayReplay.join {s : State} (h : s.MayReplay) {v : Station} (hv : v ≠ s.own) (digest : Word16) (attempt : Fin 4) :
    s.RecordApplied (s.joinRule false v digest attempt).1.advanceTsn := by
  by_cases hd : digest = s.digest
  · have hfrom : ∃ entries roster tu l, s.joinFrom false v = { s with
        replica := { s.replica with entries := entries, roster := roster }, tu := tu, lu := { s.lu with current := l } }
        ∧ roster[s.own].state ≠ .absent := by
      rw [State.joinFrom]
      split
      · exact ⟨s.replica.entries, s.replica.roster, s.tu, s.lu.current, rfl, h.listed⟩
      · obtain ⟨entries, roster, tu, l, hx, hstate⟩ := State.removeAndTell_quiet h.quiet hv h.roleless h.shadow .left
        exact ⟨entries, roster, tu, l, hx, fun habsent => h.listed ((hstate s.own (Ne.symm hv)).symm.trans habsent)⟩
    obtain ⟨entries, roster, tu, l, hx, hlisted⟩ := hfrom
    rw [State.joinRule_form false attempt hd (by rw [hx]; exact hv), hx]
    refine ⟨⟨entries, rosterJoined roster v, _, l, rfl⟩, ?_⟩
    have hget := rosterJoined_get roster v s.own
    rw [if_neg (Ne.symm hv)] at hget
    refine fun habsent => hlisted ((?_ : _ = _).trans habsent)
    refine Eq.trans ?_ (congrArg RosterEntry.state hget).symm
    split <;> rfl
  · have hsame : (s.joinRule false v digest attempt).1 = s := by
      rw [State.joinRule, if_neg hd]
      simp only [Bool.false_eq_true, false_and, if_false]
    rw [hsame]
    exact ⟨.advance s, h.listed⟩

theorem State.MayReplay.ready {s : State} (h : s.MayReplay) {v : Station} (hv : v ≠ s.own) :
    s.RecordApplied (s.readyRule false v).advanceTsn := by
  have htold : (if false = true ∧ v ≠ s.own then [Note.membership v .joined] else []) = [] :=
    if_neg (fun hl => Bool.false_ne_true hl.1)
  have hshadow : (if s.replica.roster[v].provider = some s.own then none else s.sc.shadow) = s.sc.shadow := by
    rw [h.shadow, ite_self]
  have hstate : (rosterReady s.replica.roster v)[s.own].state = s.replica.roster[s.own].state := by
    rw [rosterReady, roster_set, if_neg (Ne.symm hv), readyRoster]
    split
    · rw [roster_set]
      split
      · rename_i hx
        subst hx
        rfl
      · rfl
    · rfl
  rw [State.readyRule_form, htold, hshadow]
  exact ⟨⟨_, _, s.tu, s.lu.current, rfl⟩, fun habsent => h.listed (hstate.symm.trans habsent)⟩

/-- Any recorded frame. -/
theorem State.MayReplay.record {s : State} (h : s.MayReplay) {g : Frame} (hg : s.Replays g) :
    s.RecordApplied (s.applyRule false false g).1 := by
  obtain ⟨hstate, hsender, hspares⟩ := hg
  rcases htable : tableResource g.body with _ | r
  case some =>
    obtain ⟨tu, l, hx⟩ := State.applyRule_table_quiet h.quiet h.roleless htable hsender
    rw [hx]
    exact ⟨⟨_, _, tu, l, rfl⟩, h.listed⟩
  case none =>
    rw [State.applyRule]
    rcases hb : g.body with ⟨r, m, w, t⟩ | ⟨r, t⟩ | r | ⟨r, t⟩ | ⟨r, v, i⟩ | ⟨d, a⟩ | _ | _ | ⟨v, i⟩ | _ | ⟨v, a⟩ | ⟨v, a, t, p⟩
      <;> rw [hb] at hstate htable
    case join => exact h.join hsender d a
    case ready =>
      dsimp only
      split
      · exact h.ready hsender
      · exact ⟨.advance s, h.listed⟩
    case leave =>
      dsimp only
      split
      · exact h.removal hsender .left
      · exact ⟨.advance s, h.listed⟩
    case evict =>
      have hv : v ≠ s.own := fun hv => hspares i (by rw [hb, hv])
      simp only [Bool.false_eq_true, if_false]
      split
      · exact h.removal hv .evicted
      · exact ⟨.advance s, h.listed⟩
    case claim | release | renew | withdraw | expire => exact nomatch htable
    case presence | joinRefuse | snapshot => exact nomatch hstate

theorem State.MayReplay.next {s : State} (h : s.MayReplay) {g : Frame} (hg : s.Replays g) :
    (s.applyRule false false g).1.MayReplay := by
  obtain ⟨happlied, hlisted⟩ := h.record hg
  have hroleless := State.applyRule_each h.quiet (EntryRule.roleless hg.sender) h.roleless false false
  generalize (s.applyRule false false g).1 = x at happlied hlisted hroleless
  obtain ⟨entries, roster, tu, l, rfl⟩ := happlied
  exact ⟨h.quiet, hroleless, hlisted, h.shadow⟩

/-! ## All of them -/

/-- The recorded frames applied one after the other (R67). -/
def State.applyRecords (gs : List Frame) (s : State) : State := gs.foldl (fun s g => (s.applyRule false false g).1) s

/-- No record stops the replay. -/
theorem State.MayReplay.replay (gs : List Frame) : ∀ s : State, s.MayReplay → (∀ g ∈ gs, s.Replays g) →
    State.replay gs s = (s.applyRecords gs, true) ∧ s.RecordsApplied gs.length (s.applyRecords gs) := by
  induction gs with
  | nil => exact fun s _ _ => ⟨rfl, .zero s⟩
  | cons g gs ih =>
    intro s h hgs
    obtain ⟨happlied, hlisted⟩ := h.record (hgs g List.mem_cons_self)
    have hnext := h.next (hgs g List.mem_cons_self)
    have hown := happlied.own
    obtain ⟨hreplay, hrest⟩ := ih _ hnext (fun x hx => by
      obtain ⟨hstate, hsender, hspares⟩ := hgs x (List.mem_cons_of_mem _ hx)
      exact ⟨hstate, by rw [hown]; exact hsender, by rw [hown]; exact hspares⟩)
    exact ⟨(State.replay_goes_on hnext.listed gs).trans hreplay, happlied.succ hrest⟩

/-- Table frames leave the roster, and each acts on its entry as R12 to R22 say. -/
theorem State.MayReplay.tables (gs : List Frame) : ∀ s : State, s.MayReplay → (∀ g ∈ gs, s.Replays g) →
    (∀ g ∈ gs, (tableResource g.body).isSome = true) →
    (s.applyRecords gs).replica.roster = s.replica.roster
    ∧ ∀ r : Resource, (s.applyRecords gs).replica.entries[r] = gs.foldl (fun e g =>
        if tableResource g.body = some r ∧ s.validActor g = true then (tableRule e g.sender g.body).1 else e)
        s.replica.entries[r] := by
  induction gs with
  | nil => exact fun s _ _ _ => ⟨rfl, fun _ => rfl⟩
  | cons g gs ih =>
    intro s h hgs htables
    have hg := hgs g List.mem_cons_self
    have hnext := h.next hg
    have hown := (h.record hg).applied.own
    obtain ⟨r', hr'⟩ := Option.isSome_iff_exists.mp (htables g List.mem_cons_self)
    obtain ⟨tu, l, hx⟩ := State.applyRule_table_quiet h.quiet h.roleless hr' hg.sender
    obtain ⟨hroster, hentries⟩ := ih _ hnext (fun x hx => by
      obtain ⟨hstate, hsender, hspares⟩ := hgs x (List.mem_cons_of_mem _ hx)
      exact ⟨hstate, by rw [hown]; exact hsender, by rw [hown]; exact hspares⟩)
      (fun x hx => htables x (List.mem_cons_of_mem _ hx))
    have hsteps : s.applyRecords (g :: gs) = (s.applyRule false false g).1.applyRecords gs := rfl
    have hactor : ∀ f, (s.applyRule false false g).1.validActor f = s.validActor f := fun f => by
      rw [hx]
      rfl
    have hentry : ∀ r : Resource, (s.applyRule false false g).1.replica.entries[r]
        = if tableResource g.body = some r ∧ s.validActor g = true
          then (tableRule s.replica.entries[r] g.sender g.body).1 else s.replica.entries[r] := fun r => by
      rw [hx]
      refine (entries_set ..).trans ?_
      rw [hr']
      by_cases hr : r = r'
      · subst hr
        simp only [if_true, true_and]
      · rw [if_neg hr, if_neg (fun h => hr (Option.some.inj h.1).symm)]
    rw [hsteps]
    refine ⟨hroster.trans (by rw [hx]), fun r => ?_⟩
    rw [hentries r, List.foldl_cons, hentry r]
    simp only [hactor]

end Sys2Proof.Machine
end

section
/-! Segment 16 and the replay of what was recorded (R53, R66, R67, R125, R202). -/

namespace Sys2Proof.Machine

/-! ## What the load settles to -/

/-- SYNCED, with nothing recorded left and READY queued (R67, R68). -/
def StationCtl.synced (c : StationCtl) : StationCtl :=
  { c with
    station := .synced, catchUp := []
    control := c.control.filter (fun k => !k.kind.isMembership) ++ [{ kind := .ready, count := 0 }] }

theorem State.afterReplay_form (z : State) : ∃ l, State.afterReplay (z, true)
    = { z with sc := z.sc.synced, lu := { z.lu with current := l } } := by
  obtain ⟨l, hl⟩ := State.queueMembership_form
    { z with sc := { z.sc with catchUp := [], station := .synced } } .ready
  exact ⟨l, hl⟩

/-- IRQ# follows from the record, the queue, the idle timer and the station state (R186). -/
theorem State.irqCondition_congr {s t : State} (hconfig : t.config = s.config) (hqueue : t.nu.queue = s.nu.queue)
    (hidle : t.nu.idle = s.nu.idle) (hst : t.sc.station = s.sc.station) : t.irqCondition = s.irqCondition := by
  rw [State.irqCondition, State.irqCondition, State.threshold_congr hconfig, hconfig, hqueue, hidle, hst]

theorem SettlesTo.same_nu {d e s t : State} (hs : SettlesTo d s) (ht : SettlesTo e t) (hnu : e.nu = d.nu)
    (hconfig : e.config = d.config) (hst : e.sc.station = d.sc.station) : t.nu = s.nu := by
  have hsn : s.nu = { d.nu with irq := s.nu.irq } := congrArg State.nu hs.frame
  have htn : t.nu = { e.nu with irq := t.nu.irq } := congrArg State.nu ht.frame
  have hirq : t.nu.irq = s.nu.irq := by
    rw [ht.irq, hs.irq]
    refine State.irqCondition_congr ?_ ?_ ?_ ?_
    · rw [ht.config, hs.config, hconfig]
    · rw [ht.nu_queue, hs.nu_queue, hnu]
    · rw [ht.nu_idle, hs.nu_idle, hnu]
    · rw [ht.sc, hs.sc, hst]
  rw [hsn, htn, hnu, hirq]

/-! ## The joiner that may replay -/

theorem State.snapshotLoaded_mayReplay {s : State} {f : Frame} {x : Staged} {four : Vector Entry 4} (hh : s.hears f)
    (hlen : x.entries.length = 60)
    (hfree : ∀ e ∈ x.entries ++ four.toList, e.holds s.own = false ∧ e.waits s.own = false)
    (hlisted : x.roster[s.own].state ≠ .absent) (hshadow : s.sc.shadow = none) :
    (s.snapshotLoaded f (x.completed four)).MayReplay where
  quiet := hh.not_sending
  roleless := fun r => Entry.roleless_iff.mpr (hfree _ (loadedEntry_mem (Staged.completed_length hlen four) r))
  listed := by
    have hstate : (s.snapshotLoaded f (x.completed four)).replica.roster[s.own].state = x.roster[s.own].state :=
      congrArg RosterEntry.state (Staged.listed (x := x.completed four))
    exact fun habsent => hlisted (hstate.symm.trans habsent)
  shadow := hshadow

theorem State.validActor_congr {s x : State} (h : x.replica = s.replica) (g : Frame) : x.validActor g = s.validActor g := by
  rw [State.validActor, State.validActor, State.rosterOf, State.rosterOf, h]

theorem State.lawfulFor_congr {s x : State} (h : x.replica = s.replica) (v : Station) : x.lawfulFor v = s.lawfulFor v := by
  rw [State.lawfulFor, State.lawfulFor, h]

/-! ## One record -/

/-- What the settled joiner has of the state that its replay leaves. -/
structure ReplayKept (z t : State) : Prop where
  replica : t.replica = z.replica
  expiry : t.tu.expiry = z.tu.expiry
  presence : t.tu.presence = z.tu.presence
  verdicts : t.tu.verdicts = z.tu.verdicts

theorem ReplayKept.of_settles {z t : State} {l : Option Attempt}
    (h : SettlesTo { z with sc := z.sc.synced, lu := { z.lu with current := l } } t) : ReplayKept z t :=
  ⟨h.replica, h.tu_expiry, h.tu_presence, h.tu_verdicts⟩

theorem ReplayKept.join {s t : State} {g : Frame} {d : Word16} {a : Fin 4}
    (ht : ReplayKept (s.applyRule false false g).1 t) (hs : g.sender ≠ s.own) (hb : g.body = .join d a) (hd : d = s.digest)
    (habsent : s.replica.roster[g.sender].state = .absent) :
    t.replica.entries = s.replica.entries
    ∧ (∃ w ∈ t.tu.presence, w.station = g.sender ∧ w.inc = t.replica.roster[g.sender].inc ∧ w.elapsed = 0)
    ∧ t.replica.roster[g.sender] = {
        state := .joining
        inc := if s.replica.roster[g.sender].inc = 255 then 1 else s.replica.roster[g.sender].inc + 1
        provider := s.freeProvider g.sender
        providingFor := none } := by
  have hfrom : s.joinFrom false g.sender = s := if_pos habsent
  have hx : (s.applyRule false false g).1 = (s.listed g.sender).advanceTsn := by
    rw [State.applyRule, hb]
    dsimp only
    rw [State.joinRule_form false a hd (by rw [hfrom]; exact hs), hfrom]
  have hroster : t.replica.roster[g.sender] = ⟨.joining, nextIncarnation s.replica.roster[g.sender].inc,
      s.freeProvider g.sender, none⟩ := by
    have hget := rosterJoined_get s.replica.roster g.sender g.sender
    rw [if_pos rfl] at hget
    rw [ht.replica, hx]
    exact hget
  refine ⟨?_, ?_, hroster⟩
  · rw [ht.replica, hx]
    rfl
  · rw [hroster, ht.presence, hx]
    exact ⟨_, List.mem_append_right _ (List.mem_singleton.mpr rfl), rfl, rfl, rfl⟩

theorem ReplayKept.joinRefused {s t : State} {g : Frame} {d : Word16} {a : Fin 4}
    (ht : ReplayKept (s.applyRule false false g).1 t) (hb : g.body = .join d a) (hd : d ≠ s.digest) :
    t.replica.entries = s.replica.entries ∧ t.replica.roster = s.replica.roster := by
  have hx : (s.applyRule false false g).1 = s.advanceTsn := by
    rw [State.applyRule, hb]
    dsimp only
    rw [State.joinRule, if_neg hd]
    simp only [Bool.false_eq_true, false_and, if_false]
  rw [ht.replica, hx]
  exact ⟨rfl, rfl⟩

theorem ReplayKept.ready {s t : State} {g : Frame} (ht : ReplayKept (s.applyRule false false g).1 t) (hb : g.body = .ready)
    (hst : s.replica.roster[g.sender].state = .joining) (hinc : g.inc = s.replica.roster[g.sender].inc) :
    t.replica.entries = s.replica.entries ∧ t.replica.roster[g.sender].state = .member
    ∧ t.replica.roster[g.sender].inc = g.inc ∧ t.replica.roster[g.sender].provider = none := by
  have hlisted : s.listedAs g (fun st => st == .joining) = true :=
    Bool.and_eq_true_iff.mpr ⟨beq_iff_eq.mpr hst, beq_iff_eq.mpr hinc⟩
  have hget : (rosterReady s.replica.roster g.sender)[g.sender]
      = { (readyRoster s.replica.roster g.sender)[g.sender] with state := .member, provider := none } :=
    (roster_set _ _ _ _).trans (if_pos rfl)
  have hreplica : t.replica = { s.replica with
      roster := rosterReady s.replica.roster g.sender, tsn := s.replica.tsn + 1 } := by
    rw [ht.replica, State.applyRule_ready false false hb hlisted, State.readyRule_form]
    rfl
  rw [hreplica]
  refine ⟨rfl, ?_, ?_, ?_⟩
  · exact (congrArg RosterEntry.state hget).trans rfl
  · exact (rosterReady_inc _ _ _).trans hinc.symm
  · exact (congrArg RosterEntry.provider hget).trans rfl

theorem ReplayKept.removal {s t u : State} {g : Frame} {v : Station} (ht : ReplayKept (s.applyRule false false g).1 t)
    (hu : u.replica = s.replica) (hq : s.lu.sending = false) (hv : v ≠ s.own) (hlaw : s.lawfulFor v)
    (hlisted : s.replica.roster[v].state ≠ .absent)
    (hg : (g.body = .leave ∧ g.sender = v ∧ g.inc = s.replica.roster[v].inc)
      ∨ (g.body = .evict v s.replica.roster[v].inc ∧ s.validActor g = true)) :
    RemovesStation u t v ∧ (∀ y : Station, t.replica.roster[y] = rosterWithout u.replica.roster v y)
    ∧ ∀ w ∈ t.tu.presence, w.station ≠ v := by
  have hx : ∃ c, (s.applyRule false false g).1 = (s.removeAndTell false v c).advanceTsn := by
    have hthere : (s.replica.roster[v].state != .absent) = true := bne_iff_ne.mpr hlisted
    rcases hg with ⟨hb, rfl, hinc⟩ | ⟨hb, hvalid⟩
    · have hl : s.listedAs g (fun st => st != .absent) = true :=
        Bool.and_eq_true_iff.mpr ⟨hthere, beq_iff_eq.mpr hinc⟩
      refine ⟨.left, ?_⟩
      rw [State.applyRule, hb]
      simp only [hl, if_true]
    · refine ⟨.evicted, ?_⟩
      rw [State.applyRule_evict false hb hv]
      rw [hvalid, Bool.true_and]
      exact Bool.and_eq_true_iff.mpr ⟨hthere, beq_self_eq_true _⟩
  obtain ⟨c, hx⟩ := hx
  have hremoved := State.removeAndTell_removed hq hlaw.1 false c
  rw [hx] at ht
  generalize s.removeAndTell false v c = x at ht hremoved
  obtain ⟨hreplica, hexpiry, hpresence, hverdicts⟩ := ht
  refine ⟨hremoved.removesStation hv (by rw [hu]) (by rw [hreplica]; rfl) hexpiry (fun i hi => hverdicts ▸ hi), fun y => ?_,
    fun w hw => hremoved.presence w (hpresence ▸ hw)⟩
  rw [hreplica, hu]
  exact hremoved.roster hlaw.2 y

/-! ## All records -/

/-- The blocks that the records leave as the load alone leaves them. -/
theorem State.RecordsApplied.settled {n : Nat} {s z t u : State} {l l' : Option Attempt} (h : s.RecordsApplied n z)
    (hu : SettlesTo { s with sc := s.sc.synced, lu := { s.lu with current := l } } u)
    (ht : SettlesTo { z with sc := z.sc.synced, lu := { z.lu with current := l' } } t) :
    t.sc = u.sc ∧ t.nu = u.nu ∧ t.requests = s.requests ∧ t.config = s.config ∧ t.tm = s.tm ∧ t.kp = s.kp
    ∧ t.replica.tsn = s.replica.tsn + BitVec.ofNat 16 n ∧ t.replica.mismatch = s.replica.mismatch := by
  obtain ⟨entries, roster, tu, l', rfl⟩ := h
  refine ⟨by rw [ht.sc, hu.sc], hu.same_nu ht rfl rfl rfl, ht.requests, ht.config, ht.tm, ht.kp, ?_, ?_⟩
  · rw [ht.replica]
  · rw [ht.replica]

/-- The one record of a replay. -/
theorem replayed_record {s t u : State} {g : Frame} (hmay : s.MayReplay) (hg : s.Replays g) (hu : u.replica = s.replica)
    (ht : ReplayKept (s.applyRule false false g).1 t) :
    (∀ digest a, g.body = .join digest a → digest = s.digest → u.replica.roster[g.sender].state = .absent →
      t.replica.entries = u.replica.entries
      ∧ (∃ w ∈ t.tu.presence, w.station = g.sender ∧ w.inc = t.replica.roster[g.sender].inc ∧ w.elapsed = 0)
      ∧ t.replica.roster[g.sender] = {
          state := .joining
          inc := if u.replica.roster[g.sender].inc = 255 then 1 else u.replica.roster[g.sender].inc + 1
          provider := u.freeProvider g.sender
          providingFor := none })
    ∧ (∀ digest a, g.body = .join digest a → digest ≠ s.digest →
      t.replica.entries = u.replica.entries ∧ t.replica.roster = u.replica.roster)
    ∧ (g.body = .ready → u.replica.roster[g.sender].state = .joining → g.inc = u.replica.roster[g.sender].inc →
      t.replica.entries = u.replica.entries ∧ t.replica.roster[g.sender].state = .member
      ∧ t.replica.roster[g.sender].inc = g.inc ∧ t.replica.roster[g.sender].provider = none)
    ∧ (∀ v, u.lawfulFor v → u.replica.roster[v].state ≠ .absent →
      (g.body = .leave ∧ g.sender = v ∧ g.inc = u.replica.roster[v].inc)
        ∨ (g.body = .evict v u.replica.roster[v].inc ∧ u.validActor g = true) →
      RemovesStation u t v ∧ (∀ y : Station, t.replica.roster[y] = rosterWithout u.replica.roster v y)
      ∧ ∀ w ∈ t.tu.presence, w.station ≠ v) := by
  have hprovider : u.freeProvider g.sender = s.freeProvider g.sender := by
    rw [State.freeProvider_eq, State.freeProvider_eq, hu]
  rw [hprovider]
  refine ⟨fun d a hb hd habsent => ?_, fun d a hb hd => ?_, fun hb hst hinc => ?_, fun v hlaw hlisted hv => ?_⟩
  · rw [hu] at habsent ⊢
    exact ht.join hg.sender hb hd habsent
  · rw [hu]
    exact ht.joinRefused hb hd
  · rw [hu] at hst hinc ⊢
    exact ht.ready hb hst hinc
  · rw [State.lawfulFor_congr hu] at hlaw
    rw [State.validActor_congr hu] at hv
    have hother : v ≠ s.own := by
      rcases hv with ⟨-, rfl, -⟩ | ⟨hb, -⟩
      · exact hg.sender
      · rintro rfl
        exact hg.spares _ hb
    rw [hu] at hlisted hv
    exact ht.removal hu hmay.quiet hother hlaw hlisted hv

/-! ## Segment 16 -/

/-- Settles O48: the load as one update, then the records one by one. -/
theorem lastSegmentLoadsSnapshot : Obligations.LastSegmentLoadsSnapshot := by
  refine ⟨fun s f x attempt four hh hs hst hx hlast hlen hsender hb ha hnone => ?load,
    fun s u f x attempt four hh hs hst hx hlast hlen hsender hb ha hfree hlisted hshadow hrecords hu => ?replay⟩
  case load =>
    have hexec := hh.exec_lastSegment hs hst hx hlast hsender hb ha
    obtain ⟨l, hl⟩ := State.afterReplay_form (s.snapshotLoaded f (x.completed four))
    rw [hnone] at hexec
    rw [State.replay, hl] at hexec
    obtain ⟨t, hexec, ht⟩ := exists_settled hexec
    have hroster : ∀ v : Station, t.replica.roster[v] = (x.completed four).replica.roster[v] := fun v => by
      rw [ht.replica]
      rfl
    refine ⟨t, hexec, ?sc, ?tsn, ?mismatch, fun r => ?entries, fun v => ?roster, fun r hcon h hmem ho => ?expiry,
      fun v hv hpresent => ?presence, ht.nu_but_irq, ht.requests, ht.config, ht.tm, ht.kp⟩
    case sc =>
      rw [ht.sc]
      simp only [StationCtl.synced, ← hnone]
      rfl
    case tsn | mismatch =>
      rw [ht.replica]
      rfl
    case entries =>
      rw [ht.replica]
      exact loadedEntry (Staged.completed_length hlen four) r
    case roster =>
      rw [hroster v, Staged.listed]
      refine ⟨rfl, rfl, rfl, fun y hy => ?_, fun hno y hy => ?_⟩
      · have hfound := (allStations_find_some (p := fun y => x.roster[y].providingFor == some v) hy).1
        exact beq_iff_eq.mp hfound
      · have hother := allStations_find_none (p := fun y => x.roster[y].providingFor == some v) hno y
        exact absurd (beq_iff_eq.mpr hy) (Bool.eq_false_iff.mp hother)
    case expiry =>
      rw [ht.replica] at hcon hmem
      rw [ht.tu_expiry]
      exact ⟨_, mem_expiryLoaded s.tu.expiry hcon hmem ho, rfl, rfl, rfl, rfl, rfl⟩
    case presence =>
      have hstate : (x.completed four).replica.roster[v].state ≠ .absent := by
        rw [Staged.listed]
        exact hpresent
      have hinc : (x.completed four).replica.roster[v].inc = x.roster[v].inc := by
        rw [Staged.listed]
        rfl
      rw [ht.tu_presence]
      exact ⟨_, mem_presenceLoaded (s.heard f).tu.presence hv hstate, rfl, hinc, rfl, rfl⟩
  case replay =>
    have hmay := State.snapshotLoaded_mayReplay (f := f) (four := four) hh hlen hfree hlisted hshadow
    have hreplays : ∀ g ∈ s.sc.catchUp, (s.snapshotLoaded f (x.completed four)).Replays g := fun g hg => by
      obtain ⟨hstate, hsender, hspares⟩ := hrecords g hg
      exact ⟨hstate, hsender, hspares⟩
    obtain ⟨hreplay, happlied⟩ := hmay.replay s.sc.catchUp _ hreplays
    have hexec := hh.exec_lastSegment hs hst hx hlast hsender hb ha
    have hempty := State.hears.exec_lastSegment (s := { s with sc := { s.sc with catchUp := [] } })
      (by exact hh) (by exact hs) (by exact hst) hx hlast hsender (by exact hb) (by exact ha)
    obtain ⟨lu, hlu⟩ := State.afterReplay_form
      (State.snapshotLoaded { s with sc := { s.sc with catchUp := [] } } f (x.completed four))
    rw [State.replay, hlu, hu] at hempty
    obtain ⟨l, hl⟩ := State.afterReplay_form ((s.snapshotLoaded f (x.completed four)).applyRecords s.sc.catchUp)
    rw [hreplay, hl] at hexec
    have hsu : SettlesTo { s.snapshotLoaded f (x.completed four) with
        sc := (s.snapshotLoaded f (x.completed four)).sc.synced
        lu := { (s.snapshotLoaded f (x.completed four)).lu with current := lu } } u := by
      obtain rfl := Host.Outcome.next.inj hempty
      exact State.settle_settlesTo _
    obtain ⟨t, hexec, ht⟩ := exists_settled hexec
    have hur : u.replica = (s.snapshotLoaded f (x.completed four)).replica := hsu.replica
    obtain ⟨hsc, hnu, hrequests, hconfig, htm, hkp, htsn, hmismatch⟩ := happlied.settled hsu ht
    refine ⟨t, hexec, hsc, hnu, hrequests, hconfig, htm, hkp, htsn, hmismatch, fun htables => ?tables, fun g hg => ?record⟩
    case tables =>
      obtain ⟨hroster, hentries⟩ := hmay.tables s.sc.catchUp _ hreplays htables
      rw [ht.replica, hur]
      simp only [State.validActor_congr hur]
      exact ⟨hroster, hentries⟩
    case record =>
      have hone : (s.snapshotLoaded f (x.completed four)).applyRecords s.sc.catchUp
          = ((s.snapshotLoaded f (x.completed four)).applyRule false false g).1 := by rw [hg]; rfl
      rw [hone] at ht
      exact replayed_record (s := s.snapshotLoaded f (x.completed four)) hmay
        (hreplays g (by rw [hg]; exact List.mem_singleton_self g)) hur (ReplayKept.of_settles ht)

end Sys2Proof.Machine
end

section
/-! What the receiver reads back of a frame: bit times, bytes and CRC (R82 to R85, R94, R95). -/

namespace Sys2Proof.Machine

/-! ## Bit times -/

theorem longestDominant_none (xs : List BitReading) : (∀ x ∈ xs, x ≠ .dominant) → longestDominant xs 0 0 = 0 := by
  induction xs with
  | nil => exact fun _ => rfl
  | cons x xs ih =>
    intro h
    have hrest := ih (fun y hy => h y (List.mem_cons_of_mem _ hy))
    rcases x with _ | _ | _ | _
    case dominant => exact absurd rfl (h .dominant List.mem_cons_self)
    all_goals exact hrest

theorem bitReadings_eq (bits : List Bool) : bitReadings bits = bits.map (fun b => if b then .one else .zero) := by
  refine List.map_congr_left (fun b _ => ?_)
  cases b <;> rfl

/-- No bit time of a frame is wholly DOMINANT (R82, R84). -/
theorem Frame.readings_not_dominant (f : Frame) : ∀ x ∈ Frame.readings f, x ≠ .dominant := by
  intro x hx
  rcases List.mem_append.mp hx with hx | hx
  · rcases List.mem_append.mp hx with hx | hx
    · have hpreamble : ∀ y ∈ preamble, y ≠ .dominant := by decide
      exact hpreamble x hx
    · rw [bitReadings_eq] at hx
      obtain ⟨b, -, rfl⟩ := List.mem_map.mp hx
      cases b <;> simp
  · have hend : ∀ y ∈ endMark, y ≠ .dominant := by decide
    exact hend x hx

/-- The bits up to the end mark are the bits sent (R82, R84). -/
theorem bitsToEndMark_bitReadings (bits : List Bool) : bitsToEndMark (bitReadings bits ++ endMark) = some bits := by
  induction bits with
  | nil => rfl
  | cons b bits ih =>
    have hcons : bitReadings (b :: bits) ++ endMark = (if b then .one else .zero) :: (bitReadings bits ++ endMark) := by
      rw [bitReadings_eq, bitReadings_eq]
      rfl
    rw [hcons]
    rcases b with _ | _
    · exact (congrArg (Option.map (false :: ·)) ih).trans rfl
    · exact (congrArg (Option.map (true :: ·)) ih).trans rfl

/-! ## Bytes -/

theorem byteOfBits_byteBits : ∀ b : Byte, byteOfBits (b.getLsbD 7) (b.getLsbD 6) (b.getLsbD 5) (b.getLsbD 4) (b.getLsbD 3)
    (b.getLsbD 2) (b.getLsbD 1) (b.getLsbD 0) = b := by decide +kernel

theorem bytesOfBits_byteBits (bytes : List Byte) : bytesOfBits (bytes.flatMap byteBits) = some bytes := by
  induction bytes with
  | nil => rfl
  | cons b bytes ih =>
    have hstep : bytesOfBits ((b :: bytes).flatMap byteBits) = (bytesOfBits (bytes.flatMap byteBits)).map
        (byteOfBits (b.getLsbD 7) (b.getLsbD 6) (b.getLsbD 5) (b.getLsbD 4) (b.getLsbD 3) (b.getLsbD 2) (b.getLsbD 1)
          (b.getLsbD 0) :: ·) := rfl
    rw [hstep, ih, byteOfBits_byteBits]
    rfl

/-! ## CRC -/

/-- The register's own first bit shifts it. -/
theorem crcBit_own (r : Word16) (k : Nat) (hk : k < 16) : crcBit (r <<< k) (r.getLsbD (15 - k)) = r <<< (k + 1) := by
  have hmsb : (r <<< k).msb = r.getLsbD (15 - k) := by
    rw [BitVec.msb_eq_getLsbD_last, BitVec.getLsbD_shiftLeft]
    simp
    omega
  rw [crcBit, hmsb, if_neg (by simp), BitVec.shiftLeft_add]

/-- Bits of the register from bit `15 - k` down, sent in their order, shift it by their number. -/
theorem crcBits_own (r : Word16) (n : Nat) : ∀ k, k + n ≤ 16 →
    ((List.range' k n).map (fun i => r.getLsbD (15 - i))).foldl crcBit (r <<< k) = r <<< (k + n) := by
  induction n with
  | zero => exact fun _ _ => rfl
  | succ n ih =>
    intro k hk
    rw [List.range'_succ, List.map_cons, List.foldl_cons, crcBit_own r k (by omega), ih (k + 1) (by omega)]
    congr 1
    omega

theorem wordBytes_bits (r : Word16) :
    (wordBytes r).flatMap byteBits = (List.range' 0 16).map (fun i => r.getLsbD (15 - i)) := by
  simp [wordBytes, byteBits, List.range']

theorem foldl_crcByte (bytes : List Byte) : ∀ r : Word16, bytes.foldl crcByte r = (bytes.flatMap byteBits).foldl crcBit r := by
  induction bytes with
  | nil => exact fun _ => rfl
  | cons b bytes ih =>
    intro r
    rw [List.foldl_cons, ih, List.flatMap_cons, List.foldl_append]
    rfl

/-- The CRC of bytes followed by their CRC is 0 (R85). -/
theorem crc_append_crc (bytes : List Byte) : crc (bytes ++ wordBytes (crc bytes)) = 0 := by
  have hown : ∀ r : Word16, (wordBytes r).foldl crcByte r = 0 := fun r => by
    have hbits := crcBits_own r 16 0 (Nat.le_refl 16)
    rw [BitVec.shiftLeft_zero] at hbits
    rw [foldl_crcByte, wordBytes_bits, hbits]
    exact BitVec.shiftLeft_eq_zero (Nat.le_refl 16)
  rw [crc, List.foldl_append]
  exact hown _

end Sys2Proof.Machine
end

section
/-! The fields of a frame read back (R95, R200 to R202), and a whole frame judged good (R82 to R85). -/

namespace Sys2Proof.Machine

/-! ## Roster records -/

theorem rosterRecBytes_pair (x : RosterRec) : ∃ b0 b1, rosterRecBytes x = [b0, b1] ∧ rosterRecOf b0 b1 = some x :=
  ⟨_, _, rfl, rosterRecOf_bytes x _ _ rfl⟩

theorem rosterRecsOf_bytes (xs : List RosterRec) : rosterRecsOf xs.length (xs.flatMap rosterRecBytes) = some xs := by
  induction xs with
  | nil => rfl
  | cons x xs ih =>
    obtain ⟨b0, b1, hbytes, hread⟩ := rosterRecBytes_pair x
    rw [List.flatMap_cons, hbytes, List.length_cons, List.cons_append, List.cons_append, List.nil_append, rosterRecsOf, hread, ih]

/-! ## Entry records -/

/-- The slots of an entry record, whatever follows them. -/
theorem slotsOf_bytes (hs : List Slot) (rest : List Byte) : slotsOf hs.length (hs.flatMap slotBytes ++ rest) = some hs := by
  induction hs with
  | nil => rfl
  | cons h hs ih =>
    have hcons : (h :: hs).flatMap slotBytes ++ rest
        = stationByte h.station :: h.gen.extractLsb' 8 8 :: h.gen.extractLsb' 0 8 :: (hs.flatMap slotBytes ++ rest) := rfl
    rw [hcons, List.length_cons, slotsOf, stationOf_stationByte, ih, wordOf_wordBytes]

theorem slotBytes_length (hs : List Slot) : (hs.flatMap slotBytes).length = 3 * hs.length := by
  induction hs with
  | nil => rfl
  | cons h hs ih =>
    have hlen : (slotBytes h).length = 3 := rfl
    rw [List.flatMap_cons, List.length_append, hlen, ih, List.length_cons]
    omega

/-- Padding to a fixed length leaves what is there in front. -/
theorem take_padded {α : Type} (xs : List α) (d : α) {n : Nat} (h : xs.length ≤ n) :
    (xs ++ List.replicate n d).take n = xs ++ List.replicate (n - xs.length) d := by
  rw [List.take_append, List.take_of_length_le h, List.take_replicate, Nat.min_eq_left (Nat.sub_le ..)]

/-- The mode code of an entry record (R202). -/
def modeCode : EntryMode → Nat
  | .free => 0x00
  | .shared => 0x40
  | .exclusive => 0x80

/-- The slots part and the waiters part of an entry record. -/
def entrySlots (e : Entry) : List Byte := (e.holders.flatMap slotBytes ++ List.replicate 12 0x00).take 12

def entryWaiters (e : Entry) : List Byte := (e.waiters.map waiterRecByte ++ List.replicate 6 0x00).take 6

theorem entryRecBytes_eq (e : Entry) : entryRecBytes e = byteOf (modeCode e.mode + 8 * e.holders.length + e.waiters.length)
    :: e.gen.extractLsb' 8 8 :: e.gen.extractLsb' 0 8 :: (entrySlots e ++ entryWaiters e) := by
  rcases e with ⟨_ | _ | _, gen, hs, ws⟩ <;> rfl

theorem entrySlots_length (e : Entry) : (entrySlots e).length = 12 := by simp [entrySlots]

theorem entryWaiters_length (e : Entry) : (entryWaiters e).length = 6 := by simp [entryWaiters]

theorem entryRecBytes_length (e : Entry) : (entryRecBytes e).length = 21 := by
  rw [entryRecBytes_eq, List.length_cons, List.length_cons, List.length_cons, List.length_append, entrySlots_length,
    entryWaiters_length]

/-- Byte 0 of an entry record gives back its mode and its counts. -/
theorem entryHead (m : EntryMode) {h w : Nat} (hh : h ≤ 4) (hw : w ≤ 6) :
    (byteOf (modeCode m + 8 * h + w)).toNat / 8 % 8 = h ∧ (byteOf (modeCode m + 8 * h + w)).toNat % 8 = w
    ∧ (byteOf (modeCode m + 8 * h + w)).toNat / 64 = modeCode m / 64 := by
  have hm : modeCode m = 0 ∨ modeCode m = 64 ∨ modeCode m = 128 := by cases m <;> simp [modeCode]
  rw [byteOf_toNat _ (by omega)]
  omega

theorem countsOk_iff (e : Entry) : e.countsOk = true ↔ e.holders.length ≤ 4 ∧ e.waiters.length ≤ 6 := by
  rw [Entry.countsOk, Bool.and_eq_true]
  exact and_congr decide_eq_true_iff decide_eq_true_iff

/-- An entry record read field by field (R202). -/
theorem entryRecOf_fields {b0 hi lo : Byte} {rest : List Byte} {m : EntryMode} {hs : List Slot}
    (hmode : b0.toNat / 64 = modeCode m / 64) (hslots : slotsOf (b0.toNat / 8 % 8) rest = some hs)
    (hh : b0.toNat / 8 % 8 ≤ 4) (hw : b0.toNat % 8 ≤ 6) (hlen : rest.length = 18) :
    entryRecOf (b0 :: hi :: lo :: rest)
      = some ⟨m, wordOf hi lo, hs, ((rest.drop 12).take (b0.toNat % 8)).map waiterRecOf⟩ := by
  have hcounts : b0.toNat / 8 % 8 ≤ Config.holderLimit ∧ b0.toNat % 8 ≤ Config.waiterLimit ∧ rest.length = 18 :=
    ⟨hh, hw, hlen⟩
  unfold entryRecOf
  simp only [hmode, hslots, if_pos hcounts]
  cases m <;> rfl

/-- The waiters of an entry record. -/
theorem waiters_bytes {e : Entry} (h : e.waiters.length ≤ 6) :
    (((entrySlots e ++ entryWaiters e).drop 12).take e.waiters.length).map waiterRecOf = e.waiters := by
  have hdrop : (entrySlots e ++ entryWaiters e).drop 12 = entryWaiters e := by
    rw [← entrySlots_length e, List.drop_left]
  have hlen : (e.waiters.map waiterRecByte).length = e.waiters.length := List.length_map _
  have hread : waiterRecOf ∘ waiterRecByte = id := funext waiterRecOf_byte
  rw [hdrop, entryWaiters, take_padded _ _ (by rw [hlen]; exact h), ← hlen, List.take_left, List.map_map, hread, List.map_id]

theorem entryRecOf_bytes {e : Entry} (h : e.countsOk = true) : entryRecOf (entryRecBytes e) = some e := by
  obtain ⟨hh, hw⟩ := (countsOk_iff e).mp h
  obtain ⟨hholders, hwaiters, hmode⟩ := entryHead e.mode hh hw
  have hslots : slotsOf e.holders.length (entrySlots e ++ entryWaiters e) = some e.holders := by
    rw [entrySlots, take_padded _ _ (by rw [slotBytes_length]; omega), List.append_assoc]
    exact slotsOf_bytes e.holders _
  have hlen : (entrySlots e ++ entryWaiters e).length = 18 := by
    rw [List.length_append, entrySlots_length, entryWaiters_length]
  rw [entryRecBytes_eq, entryRecOf_fields hmode (by rw [hholders]; exact hslots) (by rw [hholders]; exact hh)
    (by rw [hwaiters]; exact hw) hlen, hwaiters, waiters_bytes hw, wordOf_wordBytes]

theorem entryRecsOf_bytes (es : List Entry) : (∀ e ∈ es, e.countsOk = true) →
    entryRecsOf es.length (es.flatMap entryRecBytes) = some es := by
  induction es with
  | nil => exact fun _ => rfl
  | cons e es ih =>
    intro h
    have htake : ((e :: es).flatMap entryRecBytes).take 21 = entryRecBytes e := by
      rw [List.flatMap_cons, ← entryRecBytes_length e, List.take_left]
    have hdrop : ((e :: es).flatMap entryRecBytes).drop 21 = es.flatMap entryRecBytes := by
      rw [List.flatMap_cons, ← entryRecBytes_length e, List.drop_left]
    rw [List.length_cons, entryRecsOf, htake, hdrop, entryRecOf_bytes (h e List.mem_cons_self),
      ih (fun x hx => h x (List.mem_cons_of_mem _ hx))]

/-! ## A payload -/

theorem payloadOf_bytes {p : Payload} (h : p.wf = true) : payloadOf (byteOf (Payload.index p)) (Payload.bytes p) = some p := by
  rcases p with records | ⟨i, four⟩
  · have hread : rosterRecsOf 32 (records.toList.flatMap rosterRecBytes) = some records.toList := by
      have hall := rosterRecsOf_bytes records.toList
      rwa [Vector.length_toList] at hall
    have hzero : byteOf (Payload.index (.roster records)) = 0 := rfl
    rw [payloadOf, if_pos hzero]
    simp only [Payload.bytes, hread, Option.bind_some, vectorOf_toList, Option.map_some]
  · have hread : entryRecsOf 4 (four.toList.flatMap entryRecBytes) = some four.toList := by
      have hall := entryRecsOf_bytes four.toList (List.all_eq_true.mp h)
      rwa [Vector.length_toList] at hall
    have hindex : (byteOf (i.val + 1)).toNat = i.val + 1 := byteOf_toNat _ (by omega)
    have hne : byteOf (Payload.index (.entries i four)) ≠ 0 := fun h0 => by
      have hz : (byteOf (i.val + 1)).toNat = 0 := congrArg BitVec.toNat h0
      omega
    have hlt : (byteOf (Payload.index (.entries i four))).toNat - 1 < 16 := by
      show (byteOf (i.val + 1)).toNat - 1 < 16
      omega
    have hi : (⟨(byteOf (Payload.index (.entries i four))).toNat - 1, hlt⟩ : Fin 16) = i := Fin.ext (by
      show (byteOf (i.val + 1)).toNat - 1 = i.val
      omega)
    rw [payloadOf, if_neg hne, dif_pos hlt, hi]
    simp only [Payload.bytes, hread, Option.bind_some, vectorOf_toList, Option.map_some]

/-! ## A body -/

section
variable {b0 b1 b2 b3 : Byte} {r : Resource} {m : LeaseMode} {w : Bool} {t : Tag} {v : Station} {a : Fin 4} {p : Payload}

theorem bodyOf_claim (h0 : resourceOf b0 = some r) (h1 : modeOf b1 = some m) (h2 : waitOf b2 = some w) (h3 : tagOf b3 = some t) :
    bodyOf 0x21 [b0, b1, b2, b3] = some (.claim r m w t) := by
  have hkind : bodyOf 0x21 [b0, b1, b2, b3] = match resourceOf b0, modeOf b1, waitOf b2, tagOf b3 with
      | some r, some m, some w, some t => some (.claim r m w t)
      | _, _, _, _ => none := rfl
  rw [hkind, h0, h1, h2, h3]

theorem bodyOf_release (h0 : resourceOf b0 = some r) (h1 : tagOf b1 = some t) :
    bodyOf 0x22 [b0, b1] = some (.release r t) := by
  have hkind : bodyOf 0x22 [b0, b1] = match resourceOf b0, tagOf b1 with
      | some r, some t => some (.release r t)
      | _, _ => none := rfl
  rw [hkind, h0, h1]

theorem bodyOf_withdraw (h0 : resourceOf b0 = some r) (h1 : tagOf b1 = some t) :
    bodyOf 0x24 [b0, b1] = some (.withdraw r t) := by
  have hkind : bodyOf 0x24 [b0, b1] = match resourceOf b0, tagOf b1 with
      | some r, some t => some (.withdraw r t)
      | _, _ => none := rfl
  rw [hkind, h0, h1]

theorem bodyOf_expire (h0 : resourceOf b0 = some r) (h1 : stationOf b1 = some v) :
    bodyOf 0x25 [b0, b1, b2, b3] = some (.expire r v (wordOf b2 b3)) := by
  have hkind : bodyOf 0x25 [b0, b1, b2, b3] = match resourceOf b0, stationOf b1 with
      | some r, some h => some (.expire r h (wordOf b2 b3))
      | _, _ => none := rfl
  rw [hkind, h0, h1]

theorem bodyOf_joinRefuse (h0 : stationOf b0 = some v) (h1 : attemptOf b1 = some a) :
    bodyOf 0x42 [b0, b1, 0x01] = some (.joinRefuse v a) := by
  have hkind : bodyOf 0x42 [b0, b1, 0x01] = match stationOf b0, attemptOf b1 with
      | some v, some a => if (0x01 : Byte) = 0x01 then some (.joinRefuse v a) else none
      | _, _ => none := rfl
  rw [hkind, h0, h1]
  exact if_pos rfl

theorem bodyOf_snapshot {bytes : List Byte} {b4 : Byte} (h0 : stationOf b0 = some v) (h1 : attemptOf b1 = some a)
    (h2 : payloadOf b2 bytes = some p) :
    bodyOf 0x43 (b0 :: b1 :: b2 :: b3 :: b4 :: bytes) = some (.snapshot v a (wordOf b3 b4) p) := by
  have hkind : bodyOf 0x43 (b0 :: b1 :: b2 :: b3 :: b4 :: bytes) = match stationOf b0, attemptOf b1, payloadOf b2 bytes with
      | some v, some a, some p => some (.snapshot v a (wordOf b3 b4) p)
      | _, _, _ => none := rfl
  rw [hkind, h0, h1, h2]

theorem bodyOf_renew : bodyOf 0x23 [b0] = (resourceOf b0).map Body.renew := rfl

theorem bodyOf_join : bodyOf 0x31 [b0, b1, b2] = (attemptOf b2).map (Body.join (wordOf b0 b1)) := rfl

theorem bodyOf_evict : bodyOf 0x34 [b0, b1] = (stationOf b0).map (fun v => Body.evict v b1) := rfl

end

/-- Each kind's fields are read back under its kind byte (R201). -/
theorem bodyOf_bytes {b : Body} (h : b.wf = true) : bodyOf (Body.kindByte b) (Body.bytes b) = some b := by
  rcases b with ⟨r, m, w, t⟩ | ⟨r, t⟩ | r | ⟨r, t⟩ | ⟨r, v, g⟩ | ⟨d, a⟩ | _ | _ | ⟨v, i⟩ | _ | ⟨v, a⟩ | ⟨v, a, t, p⟩
  case ready | leave | presence => rfl
  case claim =>
    exact bodyOf_claim (resourceOf_resourceByte r) (modeOf_modeByte m) (waitOf_waitByte w) (tagOf_tagByte t)
  case release => exact bodyOf_release (resourceOf_resourceByte r) (tagOf_tagByte t)
  case withdraw => exact bodyOf_withdraw (resourceOf_resourceByte r) (tagOf_tagByte t)
  case renew => exact bodyOf_renew.trans (by rw [resourceOf_resourceByte]; rfl)
  case evict => exact bodyOf_evict.trans (by rw [stationOf_stationByte]; rfl)
  case expire =>
    refine (bodyOf_expire (resourceOf_resourceByte r) (stationOf_stationByte v)).trans ?_
    rw [wordOf_wordBytes]
  case join =>
    refine bodyOf_join.trans ?_
    rw [attemptOf_byteOf, wordOf_wordBytes]
    rfl
  case joinRefuse => exact bodyOf_joinRefuse (stationOf_stationByte v) (attemptOf_byteOf a)
  case snapshot =>
    refine (bodyOf_snapshot (stationOf_stationByte v) (attemptOf_byteOf a) (payloadOf_bytes (p := p) h)).trans ?_
    rw [wordOf_wordBytes]

/-! ## A frame -/

theorem Frame.content_eq (f : Frame) : Frame.content f = Body.kindByte f.body :: roleByte f.role f.sender :: f.inc
    :: f.baseTsn.extractLsb' 8 8 :: f.baseTsn.extractLsb' 0 8 :: Body.bytes f.body := rfl

theorem Frame.bytes_eq (f : Frame) : Frame.bytes f = Body.kindByte f.body :: roleByte f.role f.sender :: f.inc
    :: f.baseTsn.extractLsb' 8 8 :: f.baseTsn.extractLsb' 0 8 :: (Body.bytes f.body ++ wordBytes (crc (Frame.content f))) :=
  rfl

/-- Bytes whose CRC is 0, read field by field (R95, R200). -/
theorem frameOf_fields {kind roleB inc hi lo : Byte} {rest : List Byte} {role : Role} {sender : Station} {body : Body}
    (hcrc : crc (kind :: roleB :: inc :: hi :: lo :: rest) = 0) (hlen : 2 ≤ rest.length)
    (hrole : roleOf roleB = some (role, sender)) (hbody : bodyOf kind (rest.take (rest.length - 2)) = some body) :
    frameOf (kind :: roleB :: inc :: hi :: lo :: rest)
      = some { role := role, sender := sender, inc := inc, baseTsn := wordOf hi lo, body := body } := by
  have hseven : 7 ≤ (kind :: roleB :: inc :: hi :: lo :: rest).length := by
    simp only [List.length_cons]
    omega
  unfold frameOf
  rw [if_pos ⟨hcrc, hseven⟩]
  simp only [hrole, hbody]

theorem frameOf_bytes {f : Frame} (h : f.wf = true) : frameOf (Frame.bytes f) = some f := by
  have hword : (wordBytes (crc (Frame.content f))).length = 2 := rfl
  have hbody : (Body.bytes f.body ++ wordBytes (crc (Frame.content f))).take
      ((Body.bytes f.body ++ wordBytes (crc (Frame.content f))).length - 2) = Body.bytes f.body := by
    rw [List.length_append, hword, Nat.add_sub_cancel, List.take_left]
  have hcrc : crc (Frame.bytes f) = 0 := crc_append_crc _
  rw [Frame.bytes_eq] at hcrc ⊢
  refine (frameOf_fields hcrc ?_ (roleOf_roleByte f.role f.sender) ((congrArg _ hbody).trans (bodyOf_bytes h))).trans ?_
  · rw [List.length_append, hword]
    exact Nat.le_add_left 2 _
  · rw [wordOf_wordBytes]

/-- Settles O35: the bit times give the bits, the bits the bytes, the bytes the fields. -/
theorem receiverReadsSentFrame : Obligations.ReceiverReadsSentFrame := by
  intro f h
  have hrun := longestDominant_none (Frame.readings f) (Frame.readings_not_dominant f)
  have htake : (Frame.readings f).take 8 = preamble := rfl
  have hdrop : (Frame.readings f).drop 8 = bitReadings ((Frame.bytes f).flatMap byteBits) ++ endMark := rfl
  rw [judge, hrun, if_neg (by omega), if_pos htake, hdrop, bitsToEndMark_bitReadings]
  simp only [Option.bind_some, bytesOfBits_byteBits, frameOf_bytes h]

end Sys2Proof.Machine
end
